-- ==== Sys2Proof/Word.lean ====
section
/-! DEFINITION. The block's two word widths and the value a frame is: 00_scope R7, 10_state R10. -/

namespace Sys2Proof

/-- A byte, bit 7 most significant (00_scope R7). Every field of the wire format is one byte (20_memory R41). -/
abbrev Byte := BitVec 8

/-- The width of the length registers `rx.explen`, `rx.cnt` and `slot.len` (10_state R10). -/
abbrev Len7 := BitVec 7

/-- A frame value: the pair of a command id and a payload (00_scope, Glossary). The same pair is what DRAIN
returns of the slot (10_state R31). -/
structure Frame where
  cmd : Byte
  payload : List Byte
  deriving DecidableEq, Repr

end Sys2Proof
end

