-- ==== Sys2Proof/Config.lean ====
section
/-! DEFINITION. The implementation parameters of 00_scope R6, and the values the spec leaves to the environment
(45_adjacent_blocks, 93 U4 to U8, U23). A parameter the spec gives no value is an opaque constant: nothing about it
can be proved, so a claim holds for every value of it. -/

namespace Sys2Proof

/-- `N_PEERS`: Peer0 to Peer3 (R6, 45 R155). -/
abbrev Config.nPeers : Nat := 4

/-- The active-link selector of the power machine: USB or one of the `N_PEERS` wireless peers (45 R155). -/
inductive Link where
  | usb
  | peer (n : Fin Config.nPeers)
  deriving DecidableEq, Repr, Inhabited

/-- The four values of a visual acknowledgement (45 R165). The spec gives none of them, nor their units. -/
structure Ack where
  position : Nat
  color : Nat
  blinks : Nat
  duration : Nat
  deriving DecidableEq, Repr, Inhabited

/-- The abstract actions a dispatched frame stands for (45 R148): the three examples, and any further one. -/
inductive DispatchEffect where
  | updateStatusMirror
  | triggerLedPattern
  | forwardToHost
  | further (n : Nat)
  deriving DecidableEq, Repr

namespace Config

/-- `MAX_PAYLOAD`: largest payload of a frame and of the slot, and the capacity of each buffer (R6). -/
def maxPayload : Nat := 64

/-- `HDR`: the header marker (R6, 30 R61). DESIGN CHOICE of the spec (92 D2), log entry 9. -/
def hdr : Byte := 0x7B

/-- `WAKEUP_SEQ`: the 11 bytes sent once at start-up (R6, 30 R68). -/
def wakeupSeq : List Byte :=
  [0x7B, 0x10, 0x43, 0x10, 0x03, 0x00, 0x00, 0x7D, 0x02, 0x01, 0x02]

/-- `HOST_MAX`: longest host command the request port can carry (R6, 92 D23). -/
def hostMax : Nat := 255

/-- `N_CODEC`: one codec instance (R6, 90 C7). -/
def nCodec : Nat := 1

/-- `STATUS_LEN`: length of the raw status frame, outside the block (R6, 45 R152). -/
def statusLen : Nat := 11

/-- `STATUS_TIMEOUT`: bound on one status poll, in time units, outside the block (R6, 45 R154). -/
def statusTimeout : Nat := 10

/-- `FWD_SUBCMD`: the first byte that selects forwarding. OPEN, every byte allowed (43 R130). Log entry 8. -/
opaque fwdSubcmd : Byte

/-- `SETTLE_DELAY`: OPEN; no rule reads it (R6, 44 R136). Log entry 8. -/
opaque settleDelay : Nat

/-- `IDLE_THRESHOLD`: OPEN, outside the block (R6, 45 R160). Log entry 8. -/
opaque idleThreshold : Nat

/-- The link selected at start-up: USB, or the last persisted peer where persisted configuration says so (45 R164); a
parameter of the environment (93 U7). DESIGN CHOICE, log entry 16. -/
opaque initialLink : Link

/-- The command ids the protocol knows. The spec gives no table (45 R148, 91 N6). Log entry 8. -/
opaque knownCommand : Byte → Bool

/-- `DISPATCH`: the dispatcher's table, total, nothing assumed of it (45 R148). Log entry 8. -/
opaque dispatch : Frame → List DispatchEffect

/-- The capslock value a status-class frame reports: which byte values mean true is OPEN (45 R151, 92 D33). Log entry 8. -/
opaque frameCapslock : Frame → Bool

/-- The link-index of the mirror's `n`-th overwriting: its source is OPEN, and the status frame has no field for it
(45 R152, 91 N7), so each overwriting takes a fresh free value. Log entry 8. -/
opaque linkIndex : Nat → Nat

/-- Which values of the raw status frame's last byte mean true: OPEN (45 R152, 92 D33). Log entry 8. -/
opaque capslockTrue : Byte → Bool

/-- The acknowledgement shown at a link's position: no values given (45 R161, R165). Log entry 8. -/
opaque ack : Link → Ack

/-- Whether `Disconnect` resets the idle timer: not said (45 R162). Log entry 8. -/
opaque disconnectResetsIdle : Bool

end Config
end Sys2Proof
end

