-- ==== Sys2Proof/Syntax.lean ====
section
/-! DEFINITION. The rows of spec/opcode_table.json as one inductive: the eight operations of the request port
(30_encoding R70) and the two rows that are byte formats of the wire (R60, R68). -/

namespace Sys2Proof

/-- One constructor per row of the opcode table. An operand that the encoding counts (`len` of SER and POST, `n` of
HOSTCMD, `LEN` of a wire frame) is the length of the list it counts (30 R73, 92 D32): a request in which they differ
is malformed and has no constructor. -/
inductive Instr where
  /-- FEED b: one received byte (40 R80). -/
  | feed (b : Byte)
  /-- SER cmd, [p...]: serialize and transmit (41 R101). -/
  | ser (cmd : Byte) (payload : List Byte)
  /-- POST cmd, [p...]: post to the relay (42 R111). -/
  | post (cmd : Byte) (payload : List Byte)
  /-- DRAIN: take the pending command (42 R113). -/
  | drain
  /-- TICK: drain and transmit (42 R114). -/
  | tick
  /-- HOSTCMD [s...]: a host command, delivered whole (43 R126). -/
  | hostcmd (s : List Byte)
  /-- INIT: the start-up sequence (44 R136). -/
  | init
  /-- FLUSH: abandon the frame in progress (44 R138). -/
  | flush
  /-- WIRE_FRAME: a frame of 30 R60 on the wire, as the block meets it: received on RX (log entry 7). -/
  | wireFrame (cmd : Byte) (payload : List Byte)
  /-- WAKEUP_SEQ: the 11 raw bytes of 30 R68 on the wire, received on RX (95 V14, log entry 7). -/
  | wakeupSeq
  deriving DecidableEq, Repr

end Sys2Proof
end

