-- ==== Sys2Proof/WellFormed.lean ====
section
/-! DEFINITION. Which instructions an encoding can carry: the count fields of 30_encoding R60, R71 are one byte, and
a legal wire frame has at most `MAX_PAYLOAD` payload bytes (R62). -/

namespace Sys2Proof

/-- The instruction has an encoding: each counted operand fits its count byte (30 R71), and a wire frame is legal
(30 R60, R62). Lengths 65 to 255 of SER and POST are expressible on purpose (R71). -/
def Instr.wellFormed : Instr → Bool
  | .feed _ => true
  | .ser _ p => p.length ≤ 255
  | .post _ p => p.length ≤ 255
  | .drain => true
  | .tick => true
  | .hostcmd s => s.length ≤ Config.hostMax
  | .init => true
  | .flush => true
  | .wireFrame _ p => p.length ≤ Config.maxPayload
  | .wakeupSeq => true

/-- The predicate form of `Instr.wellFormed`. -/
abbrev WellFormed (i : Instr) : Prop := i.wellFormed = true

end Sys2Proof
end

