-- ==== Sys2Proof/Decode.lean ====
section
/-! DEFINITION. Request decoding (30_encoding R70 to R72), the reading of the wire rows from RX (R60, R68), the
encoder, and the trace notation's byte forms (R73, R74). -/

namespace Sys2Proof

/-- Why the request decoder refuses (60 R176): a reserved operation code, or a byte string that does not fit its
format. The code is tested before the shape of the operands (60 R183). -/
inductive DecodeError where
  | unknownOp
  | malformedRequest
  deriving DecidableEq, Repr

/-- The eight operations of the request port (30 R70). -/
inductive Op where
  | feed | ser | post | drain | tick | hostcmd | init | flush
  deriving DecidableEq, Repr

/-- The operation code, byte 0 of a request (30 R70). -/
def Op.code : Op → Byte
  | .feed => 0x00
  | .ser => 0x01
  | .post => 0x02
  | .drain => 0x03
  | .tick => 0x04
  | .hostcmd => 0x05
  | .init => 0x06
  | .flush => 0x07

/-- The rows of the table of 30 R70. -/
def allOps : List Op := [.feed, .ser, .post, .drain, .tick, .hostcmd, .init, .flush]

/-- Exact match of all 8 bits of byte 0 (30 R70); codes 0x08 to 0xFF match no row (R72). -/
def opOf (b : Byte) : Option Op := allOps.find? (fun o => o.code == b)

/-- The next `n` bytes and the rest, if there are that many. -/
def takeBytes (n : Nat) (bs : List Byte) : Option (List Byte × List Byte) :=
  if n ≤ bs.length then some (bs.take n, bs.drop n) else none

/-- The operand bytes of a request, by its format: REQ-B, REQ-CLP, REQ-0 or REQ-NS (30 R71), and the bytes after. -/
def parseOperands : Op → List Byte → Option (Instr × List Byte)
  | .feed, b :: r => some (.feed b, r)
  | .ser, c :: n :: r => (takeBytes n.toNat r).map (fun q => (.ser c q.1, q.2))
  | .post, c :: n :: r => (takeBytes n.toNat r).map (fun q => (.post c q.1, q.2))
  | .drain, r => some (.drain, r)
  | .tick, r => some (.tick, r)
  | .hostcmd, n :: r => (takeBytes n.toNat r).map (fun q => (.hostcmd q.1, q.2))
  | .init, r => some (.init, r)
  | .flush, r => some (.flush, r)
  | _, _ => none

/-- The first request of a byte string, and the bytes after it. -/
def parseRequest : List Byte → Except DecodeError (Instr × List Byte)
  | [] => .error .malformedRequest
  | b :: r =>
    match opOf b with
    | none => .error .unknownOp
    | some o =>
      match parseOperands o r with
      | some q => .ok q
      | none => .error .malformedRequest

/-- The request decoder: one request, exactly; a shorter or longer byte string is malformed (30 R71, R72). -/
def decodeRequest (bs : List Byte) : Except DecodeError Instr :=
  match parseRequest bs with
  | .error e => .error e
  | .ok (i, []) => .ok i
  | .ok (_, _ :: _) => .error .malformedRequest

/-- A whole legal frame at the front of a byte stream: marker, command id, length at most 64, and that many bytes
(30 R60, R64). -/
def parseFrame : List Byte → Option (Frame × List Byte)
  | h :: c :: n :: r =>
    if h = Config.hdr ∧ n.toNat ≤ Config.maxPayload then
      (takeBytes n.toNat r).map (fun q => (⟨c, q.1⟩, q.2))
    else none
  | _ => none

/-- What stands at the front of RX: the wakeup sequence, a whole frame, or a single byte. Every reading is the
reception of the bytes it takes, one FEED each (40 R80), so none of them changes what the parser does (log entry 7). -/
def decodeRx : List Byte → Option (Instr × List Byte)
  | [] => none
  | b :: r =>
    if (b :: r).take Config.wakeupSeq.length = Config.wakeupSeq then
      some (.wakeupSeq, (b :: r).drop Config.wakeupSeq.length)
    else
      match parseFrame (b :: r) with
      | some (f, q) => some (.wireFrame f.cmd f.payload, q)
      | none => some (.feed b, r)

/-! The encoder, from the same tables. -/

/-- A count as the one byte that carries it (30 R62, R71). -/
def countByte (n : Nat) : Byte := BitVec.ofNat 8 n

/-- The bytes `ser(c, p)` of 41 R100: marker, command id, length, payload. -/
def frameBytes (f : Frame) : List Byte :=
  Config.hdr :: f.cmd :: countByte f.payload.length :: f.payload

/-- The bytes of an instruction: a request (30 R70), or the bytes on the wire (R60, R68). -/
def encode : Instr → List Byte
  | .feed b => [Op.feed.code, b]
  | .ser c p => Op.ser.code :: c :: countByte p.length :: p
  | .post c p => Op.post.code :: c :: countByte p.length :: p
  | .drain => [Op.drain.code]
  | .tick => [Op.tick.code]
  | .hostcmd s => Op.hostcmd.code :: countByte s.length :: s
  | .init => [Op.init.code]
  | .flush => [Op.flush.code]
  | .wireFrame c p => frameBytes ⟨c, p⟩
  | .wakeupSeq => Config.wakeupSeq

/-- Whether a row is a request: it has an operation code (spec/opcode_table.json, "kind"). -/
def Instr.isRequest : Instr → Bool
  | .feed _ => true
  | .ser _ _ => true
  | .post _ _ => true
  | .drain => true
  | .tick => true
  | .hostcmd _ => true
  | .init => true
  | .flush => true
  | .wireFrame _ _ => false
  | .wakeupSeq => false

/-! Traces (30 R73, R74). -/

/-- A program written as the requests' bytes one after the other (95, "Whole program as bytes"), with at most `fuel`
requests read. -/
def parseTraceFuel : Nat → List Byte → Except DecodeError (List Instr)
  | _, [] => .ok []
  | 0, _ :: _ => .error .malformedRequest
  | fuel + 1, b :: r =>
    match parseRequest (b :: r) with
    | .error e => .error e
    | .ok (i, q) =>
      match parseTraceFuel fuel q with
      | .error e => .error e
      | .ok is => .ok (i :: is)

/-- A whole program as bytes; a request is at least one byte, so its length is fuel enough. -/
def parseTrace (bs : List Byte) : Except DecodeError (List Instr) := parseTraceFuel bs.length bs

/-- `FEEDS [b0 ... bk]` (30 R74). -/
def feeds (bs : List Byte) : List Instr := bs.map .feed

/-- `FORWARD cc, [p...]` (30 R74). -/
def forward (c : Byte) (p : List Byte) : Instr := .hostcmd (Config.fwdSubcmd :: c :: p)

/-! The table's numbering of an instruction's bits: bit 0 is the least significant bit of the first byte. -/

/-- The longest instruction: SER or POST with 255 payload bytes. -/
def maxInstrBytes : Nat := 258

/-- How many bytes the instruction that begins with these has: its format and its count byte say it (30 R60, R71). -/
def tableSpan : List Byte → Nat
  | op :: a :: b :: _ =>
    match opOf op with
    | some .feed => 2
    | some .ser => 3 + b.toNat
    | some .post => 3 + b.toNat
    | some .drain => 1
    | some .tick => 1
    | some .hostcmd => 2 + a.toNat
    | some .init => 1
    | some .flush => 1
    | none => if op = Config.hdr then 3 + b.toNat else 1
  | _ => 1

/-- The bytes of the word `w` of `nbits` bits, byte 0 first, and as many zero bytes after it as the instruction still
has. -/
def tableBytes (nbits w : Nat) : List Byte :=
  let head := (List.range (max 3 ((nbits + 7) / 8))).map (fun k => BitVec.ofNat 8 ((w % 2 ^ nbits) >>> (8 * k)))
  head ++ List.replicate (tableSpan head - head.length) 0

/-- Where a table word goes and what stands there: the request it is, or, where byte 0 is no operation code, the wire
row it is on RX. The Bool says whether it is a request. -/
def readTableBytes (bs : List Byte) : Option (Bool × Instr × List Byte) :=
  match parseRequest bs with
  | .ok (i, q) => some (true, i, q)
  | .error _ =>
    match decodeRx bs with
    | some (.wireFrame c p, q) => some (false, .wireFrame c p, q)
    | some (.wakeupSeq, q) => some (false, .wakeupSeq, q)
    | _ => none

end Sys2Proof

/-- The instruction the decoders read from the table word `w`, its operand bytes above `nbits` zero. -/
def Sys2Proof.decodeTableWord (nbits w : Nat) : Option Sys2Proof.Instr :=
  (Sys2Proof.readTableBytes (Sys2Proof.tableBytes nbits w)).map (fun q => q.2.1)
end

