-- ==== Sys2Proof/Machine/State.lean ====
section
/-! DEFINITION. The machine's state: the ten fields of 10_state R10, the transmit record (R29), the outputs of the
operations (R31), the environment's pending moves (70 R221) and the environment's components (45_adjacent_blocks). -/

namespace Sys2Proof.Machine

/-- The parse position `rx.pos` (10 R11). -/
inductive Position where
  | awaitHeader
  | awaitCommand
  | awaitLength
  | awaitBody
  deriving DecidableEq, Repr

/-- The result of SER (41 R101, R102). An oversized result carries the offending length. -/
inductive SerResult where
  | ok
  | oversizedPayload (len : Nat)
  deriving DecidableEq, Repr

/-- The outputs of one operation (10 R31), each at rest unless the operation drives it. `none` in `serResult` and
`postOk` says that the operation is not one that drives them. -/
structure Outputs where
  frame : Option Frame := none
  serResult : Option SerResult := none
  postOk : Option Bool := none
  drained : Option Frame := none
  activity : Bool := false
  delegated : Option (List Byte) := none
  deriving DecidableEq, Repr

/-- The outputs of an operation that drives none: FEED with `frame = None`, DRAIN and TICK with `drained = None`, INIT
and FLUSH (10 R31). -/
abbrev Outputs.silent : Outputs := {}

/-- The buffers `ACC` and `SLOT` as bytes at indices (10 R15, R22, R27), in one canonical form: indices strictly
rising, each below `MAX_PAYLOAD`, and no entry equal to what an unlisted index reads as. -/
abbrev Memory := List Host.Cell

/-- What an index that is not listed reads as. DESIGN CHOICE, log entry 3: the spec leaves the buffers unspecified
after reset (70 R201). -/
def Memory.fill : Byte := 0x00

/-- Indices rise strictly from above `lo`, stay below `MAX_PAYLOAD`, and no listed byte is the fill. -/
def Memory.wfFrom : Option Nat → Memory → Bool
  | _, [] => true
  | lo, (a, v) :: m =>
    decide (∀ l ∈ lo, l < a) && decide (a < Config.maxPayload) && (v != Memory.fill) && Memory.wfFrom (some a) m

/-- The canonical form of a buffer. -/
def Memory.wf (m : Memory) : Bool := Memory.wfFrom none m

/-- The contexts that may request operations (00 Glossary, 60 R182). -/
inductive Context where
  | tick
  | byteReceived
  | hostCommandReceived
  | keyEvent
  | startUp
  deriving DecidableEq, Repr

/-- Sleep state of the link/power machine (45 R155). -/
inductive Power where
  | awake
  | asleep
  deriving DecidableEq, Repr

/-- The status mirror's pair (45 R150). -/
structure Mirror where
  capslock : Bool
  linkIndex : Nat
  deriving DecidableEq, Repr

/-- An effect handed to a collaborator of the environment: an action of a dispatched frame (45 R148), or one of the
power machine's (45 R161, R163, R165). -/
inductive Effect where
  | dispatched (frame : Frame) (effect : DispatchEffect)
  | acknowledge (a : Ack)
  | selectLink (l : Link)
  | clearPairing (n : Fin Config.nPeers)
  | renderingEnable
  | renderingDisable
  deriving DecidableEq, Repr

/-- The environment's components of 45_adjacent_blocks: the power machine (R155, R158, R163), the mirror (R150), and
the records of effects and of logged command ids (R146, R148). No operation of the block reads it (R167).
`draws` counts the mirror's overwritings, for the free value each takes (log entry 8); it is the model's own. -/
structure Env where
  now : Nat
  power : Power
  link : Link
  rendering : Bool
  idleStamp : Nat
  paired : Vector Bool Config.nPeers
  mirror : Mirror
  draws : Nat
  effects : List Effect
  unknownLog : List Byte
  deriving DecidableEq, Repr

/-- A move of the environment's components (45 R151, R154 to R163). -/
inductive Move where
  /-- Time passes (45 R158); its unit is not given. -/
  | elapse (d : Nat)
  | keyPressed
  /-- `IdleTimeoutElapsed` is evaluated (45 R160). -/
  | idleCheck
  | selectLink (l : Link)
  | disconnect
  | unpair
  /-- The radio collaborator has stored a pairing for a peer (log entry 6). -/
  | pairingStored (n : Fin Config.nPeers)
  /-- A poll of the raw status frame that waited `waited` time units and read `bytes` (45 R152, R154). DESIGN CHOICE,
  log entry 14: the poll carries its own bytes and takes none of RX; the spec leaves open whether the two streams are one
  (00 R4, 45 R167 (c), 90 C4 (c), C7). -/
  | statusPoll (waited : Nat) (bytes : List Byte)
  deriving DecidableEq, Repr

/-- What the environment does next (70 R221): one request at the port, in some context; bytes arriving on RX; the
reset event (70 R200); or a move of its own components. -/
inductive Input where
  | request (ctx : Context) (bytes : List Byte)
  | rx (bytes : List Byte)
  | reset
  | move (m : Move)
  deriving DecidableEq, Repr

/-- The machine's state. -/
structure State where
  /-- `rx.pos`, 10 R11. -/
  rxPos : Position
  /-- `rx.cmd`, 10 R12. -/
  rxCmd : Byte
  /-- `rx.explen`, 10 R13. -/
  rxExplen : Len7
  /-- `rx.cnt`, 10 R14. -/
  rxCnt : Len7
  /-- `ACC`, 10 R15. -/
  acc : Memory
  /-- `slot.occupied`, 10 R19. -/
  slotOccupied : Bool
  /-- `slot.cmd`, 10 R20. -/
  slotCmd : Byte
  /-- `slot.len`, 10 R21. -/
  slotLen : Len7
  /-- `SLOT`, 10 R22. -/
  slot : Memory
  /-- `link_ready`, 10 R24. -/
  linkReady : Bool
  /-- `TX`, the record of every byte sent, oldest first (10 R29). -/
  tx : List Byte
  /-- The outputs of every operation so far, oldest first (10 R31, 70 R222; log entry 4). -/
  results : List Outputs
  /-- The environment's pending moves, next first (log entry 1). -/
  inbox : List Input
  /-- The environment's components, outside the block (00 R4; log entry 5). -/
  env : Env
  deriving DecidableEq, Repr

/-- Why the machine stops with a fault. -/
inductive Fault where
  /-- An index of ACC or SLOT at or past `MAX_PAYLOAD`: no such byte exists (10 R27). Raised by FEED in `AwaitBody`
  (and so by WIRE_FRAME and WAKEUP_SEQ) when `rx.cnt` is 64 or more, and by DRAIN and TICK when `slot.len` is above 64;
  the states that raise it violate 10 R16 or R23 and no run reaches them. Safe: the machine stops. -/
  | bufferIndex
  deriving DecidableEq, Repr

/-- Why a request has no step and the run is refused (60 R184). -/
inductive Refusal where
  /-- An instruction that has no meaning yet; exec's arms alone answer it. Safe. -/
  | notModelled (mnemonic : String)
  /-- SER or TICK while `link_ready` is false (41 R103, 42 R119). Safe: the spec refuses. -/
  | notReady
  /-- INIT while `link_ready` is true (44 R137). Safe: the spec refuses. -/
  | initTwice
  /-- A request with a reserved operation code (30 R72), raised by the fetch. Safe: the spec refuses. -/
  | unknownOp
  /-- A request that does not fit its format (30 R71, R72), raised by the fetch. Safe: the spec refuses. -/
  | malformedRequest
  deriving DecidableEq, Repr

/-- The environment's components at start-up: `Awake`, and the initial link, a parameter of the environment (45 R164,
93 U7; DESIGN CHOICE, log entry 16). The other values are a DESIGN CHOICE, log entry 6. -/
def Env.start : Env where
  now := 0
  power := .awake
  link := Config.initialLink
  rendering := true
  idleStamp := 0
  paired := Vector.replicate Config.nPeers false
  mirror := ⟨false, 0⟩
  draws := 0
  effects := []
  unknownLog := []

/-- The machine right after reset (70 R201). The data fields the spec leaves unspecified are zero: DESIGN CHOICE, log
entries 2 and 3. -/
def State.reset : State where
  rxPos := .awaitHeader
  rxCmd := 0
  rxExplen := 0
  rxCnt := 0
  acc := []
  slotOccupied := false
  slotCmd := 0
  slotLen := 0
  slot := []
  linkReady := false
  tx := []
  results := []
  inbox := []
  env := Env.start

end Sys2Proof.Machine
end

