-- ==== Sys2Proof/Machine/Operands.lean ====
section
/-! DEFINITION. Operand forms: lengths in registers, byte fields of a host command, and the numeric codes of positions
and results. -/

namespace Sys2Proof.Machine

/-- The code of a parse position (10 R11); no operation exposes it. -/
def Position.code : Position → BitVec 2
  | .awaitHeader => 0
  | .awaitCommand => 1
  | .awaitLength => 2
  | .awaitBody => 3

/-- The numeric result code of SER (60 R176, 92 D25). -/
def SerResult.code : SerResult → Byte
  | .ok => 0x00
  | .oversizedPayload _ => 0x01

/-- A length register holding `n` (10 R13, R14, R21); exact for the legal values 0 to 64. -/
def len7 (n : Nat) : Len7 := BitVec.ofNat 7 n

/-- The fields of a host command (30 R67, 43 R126), by its number of bytes and its first. -/
inductive HostCommand where
  /-- Too short for its branch: no first byte, or the forwarding selector alone (43 R128). -/
  | short
  /-- The first byte is not `FWD_SUBCMD`: the whole sequence, unmodified (43 R129). -/
  | delegate (s : List Byte)
  /-- `TCMD` and `HPAY` of a forwarding command (30 R67). -/
  | forward (cmd : Byte) (payload : List Byte)
  deriving DecidableEq, Repr

/-- Reads a host command, testing in the order of 43 R126: no byte, the selector, no second byte. -/
def readHostCommand : List Byte → HostCommand
  | [] => .short
  | b :: r =>
    if b ≠ Config.fwdSubcmd then .delegate (b :: r)
    else
      match r with
      | [] => .short
      | c :: p => .forward c p

end Sys2Proof.Machine
end

