-- ==== Sys2Proof/Machine/Flags.lean ====
section
/-! DEFINITION. The comparisons of 30_encoding R66. The block has no arithmetic flags (10 R26): its two flags are the
fields `slotOccupied` and `linkReady`, and these are the conditions the operations test. -/

namespace Sys2Proof.Machine

/-- `b == HDR` (40 R81). -/
def isHeader (b : Byte) : Bool := b == Config.hdr

/-- `n > MAX_PAYLOAD`, unsigned (40 R83, 41 R102, 42 R112). -/
def oversized (n : Nat) : Bool := Config.maxPayload < n

/-- `rx.cnt + 1 == rx.explen` (40 R84), exact: the sum does not wrap (30 R66). -/
def closesBody (s : State) : Bool := s.rxCnt.toNat + 1 == s.rxExplen.toNat

end Sys2Proof.Machine
end

