-- ==== Sys2Proof/Machine/Ops.lean ====
section
/-! DEFINITION. The named operations over buffers and registers that the meanings share, and `raise`, the block's only
form of exception (60 R181). -/

namespace Sys2Proof.Machine

/-! Buffers: every access is one byte at an index below `MAX_PAYLOAD` (20 R45, 10 R27). -/

/-- The byte at index `i` (00 R8, `MemRead`). -/
def Memory.read : Memory → Nat → Byte
  | [], _ => Memory.fill
  | (a, v) :: m, i => if a = i then v else Memory.read m i

/-- Insertion of a listed byte at its place among rising indices, replacing one already there. -/
def Memory.insert : Memory → Nat → Byte → Memory
  | [], i, v => [(i, v)]
  | (a, w) :: m, i, v =>
    if i < a then (i, v) :: (a, w) :: m
    else if i = a then (i, v) :: m
    else (a, w) :: Memory.insert m i v

/-- Removal of what is listed at an index. -/
def Memory.erase : Memory → Nat → Memory
  | [], _ => []
  | (a, w) :: m, i => if a = i then Memory.erase m i else (a, w) :: Memory.erase m i

/-- Byte `v` at index `i` (00 R8, `MemWrite`), in canonical form: the fill is not listed. -/
def Memory.write (m : Memory) (i : Nat) (v : Byte) : Memory :=
  if v = Memory.fill then m.erase i else m.insert i v

/-- The bytes at indices `from`, `from + 1`, ..., `n` of them. -/
def Memory.readFrom (m : Memory) : Nat → Nat → List Byte
  | _, 0 => []
  | i, n + 1 => m.read i :: Memory.readFrom m (i + 1) n

/-- The first `n` bytes: `[MemRead(0), ..., MemRead(n-1)]`. -/
def Memory.readBytes (m : Memory) (n : Nat) : List Byte := m.readFrom 0 n

/-- The bytes `bs` at indices `i`, `i + 1`, ... (42 R111). -/
def Memory.writeFrom : Memory → Nat → List Byte → Memory
  | m, _, [] => m
  | m, i, b :: bs => Memory.writeFrom (m.write i b) (i + 1) bs

/-! Outputs and streams. -/

/-- `result v`: the operation's outputs (10 R31). -/
def State.respond (s : State) (o : Outputs) : State := { s with results := s.results ++ [o] }

/-- `raise`: the operation ends with a named non-normal result and writes no state (60 R181). -/
def State.raise (s : State) (o : Outputs) : State := s.respond o

/-- `emit_tx` of each byte, in order, contiguous (10 R29, 41 R104). -/
def State.emit (s : State) (bs : List Byte) : State := { s with tx := s.tx ++ bs }

/-! The parser's writes (40 R81 to R84). -/

/-- `rx.pos <- p`. -/
def State.setPos (s : State) (p : Position) : State := { s with rxPos := p }

/-- `rx.cmd <- b` and on to the length byte (40 R82). -/
def State.latchCmd (s : State) (b : Byte) : State := { s with rxCmd := b, rxPos := .awaitLength }

/-- `rx.explen <- n`, `rx.cnt <- 0` and on to the body (40 R83). -/
def State.beginBody (s : State) (n : Nat) : State :=
  { s with rxExplen := len7 n, rxCnt := 0, rxPos := .awaitBody }

/-- `MemWrite(ACC, rx.cnt, 1, b)` and `rx.cnt <- rx.cnt + 1` (40 R84). -/
def State.storeByte (s : State) (b : Byte) : State :=
  { s with acc := s.acc.write s.rxCnt.toNat b, rxCnt := len7 (s.rxCnt.toNat + 1) }

/-- The frame the closing body byte `b` completes (40 R84): the bytes stored by earlier FEEDs, then `b`. -/
def State.closedFrame (s : State) (b : Byte) : Frame :=
  ⟨s.rxCmd, s.acc.readBytes (s.rxExplen.toNat - 1) ++ [b]⟩

/-- The length byte `b` (40 R83): oversized, zero, or the announced payload length. -/
def State.feedLength (s : State) (b : Byte) : State :=
  if oversized b.toNat then (s.setPos .awaitHeader).respond .silent
  else if b.toNat = 0 then (s.setPos .awaitHeader).respond { frame := some ⟨s.rxCmd, []⟩ }
  else (s.beginBody b.toNat).respond .silent

/-- A body byte `b` at an index that exists (40 R84). -/
def State.feedBody (s : State) (b : Byte) : State :=
  if closesBody s then
    ((s.storeByte b).setPos .awaitHeader).respond { frame := some (s.closedFrame b) }
  else (s.storeByte b).respond .silent

/-- One received byte through the parser (40 R80): `link_ready` first, then the position (60 R183). -/
def feedByte (b : Byte) (s : State) : Host.Outcome State Fault Refusal :=
  if s.linkReady = false then .next (s.respond .silent)
  else
    match s.rxPos with
    | .awaitHeader => .next ((if isHeader b then s.setPos .awaitCommand else s).respond .silent)
    | .awaitCommand => .next ((s.latchCmd b).respond .silent)
    | .awaitLength => .next (s.feedLength b)
    | .awaitBody => if s.rxCnt.toNat < Config.maxPayload then .next (s.feedBody b) else .fault .bufferIndex

/-- The bytes of RX through the parser, one after the other in arrival order (30 R74, `FEEDS`). -/
def feedAll : List Byte → State → Host.Outcome State Fault Refusal
  | [], s => .next s
  | b :: bs, s =>
    match feedByte b s with
    | .next t => feedAll bs t
    | .fault r => .fault r
    | .refused r => .refused r

/-! The relay (42 R111, R113). -/

/-- The slot takes a command: data and flag in one step (20 R53). -/
def State.fillSlot (s : State) (c : Byte) (p : List Byte) : State :=
  { s with slotCmd := c, slotLen := len7 p.length, slot := s.slot.writeFrom 0 p, slotOccupied := true }

/-- The test-and-set of POST, with its boolean (42 R111, R112): the length before the flag (60 R183). -/
def postSlot (c : Byte) (p : List Byte) (s : State) : Bool × State :=
  if oversized p.length then (false, s)
  else if s.slotOccupied then (false, s)
  else (true, s.fillSlot c p)

/-- The command the slot holds (42 R113). -/
def State.pending (s : State) : Frame := ⟨s.slotCmd, s.slot.readBytes s.slotLen.toNat⟩

/-- `slot.occupied <- false`; the data fields keep their values (10 R22, 92 D18). -/
def State.vacate (s : State) : State := { s with slotOccupied := false }

/-- The test-and-clear of DRAIN (42 R113): what it takes and the state it leaves; `none` where the pending command
runs past the end of SLOT. -/
def drainSlot (s : State) : Option (Option Frame × State) :=
  if s.slotOccupied = false then some (none, s)
  else if s.slotLen.toNat ≤ Config.maxPayload then some (some s.pending, s.vacate)
  else none

/-- The outputs of DRAIN and TICK: `activity` is pulsed exactly when a command was taken (42 R116). -/
def drainOutputs (d : Option Frame) : Outputs := { drained := d, activity := d.isSome }

/-- `for each byte x of ser(cmd, p): emit_tx(x)` (41 R100, R101). -/
def State.send (s : State) (f : Frame) : State := s.emit (frameBytes f)

/-! The link. -/

/-- The end of the start-up sequence: flush and ready (44 R136). -/
def State.markReady (s : State) : State := { s with rxPos := .awaitHeader, linkReady := true }

/-- The reset event (70 R200): the block's fields, its record of TX and its outputs are as 70 R201 says; what is the
environment's stays (log entry 10). -/
def State.resetBlock (s : State) : State := { State.reset with inbox := s.inbox, env := s.env }

end Sys2Proof.Machine
end

