-- ==== Sys2Proof/Machine/Codec.lean ====
section
/-! DEFINITION. The Frame Codec's operations FEED (40_codec_rx) and SER (41_codec_tx). -/

namespace Sys2Proof.Machine

/-- FEED (40 R80 to R85). Total; touches neither flag; at most one frame. -/
def execFeed (b : Byte) (s : State) : Host.Outcome State Fault Refusal := feedByte b s

/-- SER (41 R101 to R103): `link_ready` is tested before the length (60 R183). -/
def execSer (c : Byte) (p : List Byte) (s : State) : Host.Outcome State Fault Refusal :=
  if s.linkReady = false then .refused .notReady
  else if oversized p.length then .next (s.raise { serResult := some (.oversizedPayload p.length) })
  else .next ((s.send ⟨c, p⟩).respond { serResult := some .ok })

end Sys2Proof.Machine
end

