-- ==== Sys2Proof/Machine/HostIngest.lean ====
section
/-! DEFINITION. Host command ingestion (43_host_ingest). -/

namespace Sys2Proof.Machine

/-- HOSTCMD (43 R126 to R129): drop, delegate unmodified, or POST the forwarded command. -/
def execHostcmd (b : List Byte) (s : State) : Host.Outcome State Fault Refusal :=
  match readHostCommand b with
  | .short => .next (s.respond { postOk := some false })
  | .delegate d => .next (s.respond { postOk := some false, delegated := some d })
  | .forward c p => .next ((postSlot c p s).2.respond { postOk := some (postSlot c p s).1 })

end Sys2Proof.Machine
end

