-- ==== Sys2Proof/Machine/Relay.lean ====
section
/-! DEFINITION. The Forward Relay's operations POST, DRAIN and TICK (42_relay). -/

namespace Sys2Proof.Machine

/-- POST (42 R111, R112). -/
def execPost (c : Byte) (p : List Byte) (s : State) : Host.Outcome State Fault Refusal :=
  .next ((postSlot c p s).2.respond { postOk := some (postSlot c p s).1 })

/-- DRAIN (42 R113). -/
def execDrain (s : State) : Host.Outcome State Fault Refusal :=
  match drainSlot s with
  | some (d, t) => .next (t.respond (drainOutputs d))
  | none => .fault .bufferIndex

/-- TICK (42 R114, R119): one atomic operation, DRAIN and then SER of what it took. -/
def execTick (s : State) : Host.Outcome State Fault Refusal :=
  if s.linkReady = false then .refused .notReady
  else
    match drainSlot s with
    | some (none, t) => .next (t.respond (drainOutputs none))
    | some (some f, t) => .next ((t.send f).respond (drainOutputs (some f)))
    | none => .fault .bufferIndex

end Sys2Proof.Machine
end

