-- ==== Sys2Proof/Machine/System.lean ====
section
/-! DEFINITION. The system operations INIT and FLUSH (44_system_ops). -/

namespace Sys2Proof.Machine

/-- INIT (44 R136, R137): the wakeup bytes, the flush, ready. The settle delay changes nothing in the block. -/
def execInit (s : State) : Host.Outcome State Fault Refusal :=
  if s.linkReady then .refused .initTwice
  else .next ((s.emit Config.wakeupSeq).markReady.respond .silent)

/-- FLUSH (44 R138). -/
def execFlush (s : State) : Host.Outcome State Fault Refusal :=
  .next ((s.setPos .awaitHeader).respond .silent)

end Sys2Proof.Machine
end

