-- ==== Sys2Proof/Machine/Wire.lean ====
section
/-! DEFINITION. The two rows of the opcode table that are no requests but bytes of the wire (30_encoding R60, R68): the
block meets them on RX, and their reception is FEED of each byte in order (40 R80, 30 R74). Log entry 7. -/

namespace Sys2Proof.Machine

/-- WIRE_FRAME received: `FEEDS [FRAME(cmd, payload)]` (30 R60, R74). -/
def execWireFrame (c : Byte) (p : List Byte) (s : State) : Host.Outcome State Fault Refusal :=
  feedAll (frameBytes ⟨c, p⟩) s

/-- WAKEUP_SEQ received: its 11 bytes fed raw (30 R68, 95 V14). -/
def execWakeupSeq (s : State) : Host.Outcome State Fault Refusal := feedAll Config.wakeupSeq s

end Sys2Proof.Machine
end

