-- ==== Sys2Proof/Machine/Dispatch.lean ====
section
/-! DEFINITION. One arm per row of the opcode table. -/

namespace Sys2Proof.Machine

def exec (i : Instr) (s : State) : Host.Outcome State Fault Refusal :=
  match i with
  | .feed b => Sys2Proof.Machine.execFeed b s
  | .ser c p => Sys2Proof.Machine.execSer c p s
  | .post c p => Sys2Proof.Machine.execPost c p s
  | .drain => Sys2Proof.Machine.execDrain s
  | .tick => Sys2Proof.Machine.execTick s
  | .hostcmd b => Sys2Proof.Machine.execHostcmd b s
  | .init => Sys2Proof.Machine.execInit s
  | .flush => Sys2Proof.Machine.execFlush s
  | .wireFrame c p => Sys2Proof.Machine.execWireFrame c p s
  | .wakeupSeq => Sys2Proof.Machine.execWakeupSeq s

end Sys2Proof.Machine
end

