-- ==== Sys2Proof/Machine/Environment.lean ====
section
/-! DEFINITION. The environment's components as far as 45_adjacent_blocks gives them: dispatcher, status mirror, power
machine. They are outside the block (00 R4, log entry 5): they see its outputs and write none of its state (45 R167). -/

namespace Sys2Proof.Machine

/-- `dispatch` (45 R145): an unrecognised command id maps to the empty effect list (R146). -/
def dispatchFrame (f : Frame) : List DispatchEffect :=
  if Config.knownCommand f.cmd then Config.dispatch f else []

/-- The mirror's pair is overwritten as one value (45 R151); the link-index is a free value (log entry 8). -/
def Env.overwriteMirror (e : Env) (caps : Bool) : Env :=
  { e with mirror := ⟨caps, Config.linkIndex e.draws⟩, draws := e.draws + 1 }

/-- One effect of a dispatched frame (45 R148): the mirror's pair is overwritten at once (R151); every effect is
recorded for its collaborator. -/
def Env.applyEffect (f : Frame) (e : Env) (d : DispatchEffect) : Env :=
  match d with
  | .updateStatusMirror =>
    { e.overwriteMirror (Config.frameCapslock f) with effects := e.effects ++ [.dispatched f d] }
  | .triggerLedPattern => { e with effects := e.effects ++ [.dispatched f d] }
  | .forwardToHost => { e with effects := e.effects ++ [.dispatched f d] }
  | .further _ => { e with effects := e.effects ++ [.dispatched f d] }

/-- An unrecognised command id is logged (45 R146). -/
def Env.logUnknown (e : Env) (f : Frame) : Env :=
  if Config.knownCommand f.cmd then e else { e with unknownLog := e.unknownLog ++ [f.cmd] }

/-- A frame is dispatched: its effects apply in the order listed (45 R147). -/
def Env.onFrame (e : Env) (f : Frame) : Env := (dispatchFrame f).foldl (Env.applyEffect f) (e.logUnknown f)

/-- A qualifying activity event: the idle timer's timestamp becomes the present time (45 R158, R159). -/
def Env.onActivity (e : Env) : Env := { e with idleStamp := e.now }

/-- What the environment does with one operation's outputs (45 R167): `frame` to the dispatcher, `activity` to the idle
timer. -/
def Env.react (e : Env) (o : Outputs) : Env :=
  let e₁ := match o.frame with
    | some f => e.onFrame f
    | none => e
  if o.activity then e₁.onActivity else e₁

/-- The status mirror's `read()` (45 R153). -/
def Env.readMirror (e : Env) : Bool × Nat := (e.mirror.capslock, e.mirror.linkIndex)

/-- `KeyPressed` (45 R156, R157): always resets the idle timer; asleep, it also wakes and enables rendering. -/
def Env.onKeyPressed (e : Env) : Env :=
  match e.power with
  | .awake => e.onActivity
  | .asleep =>
    { e.onActivity with power := .awake, rendering := true, effects := e.effects ++ [.renderingEnable] }

/-- The idle timer has reached the threshold (45 R158, R160). -/
def Env.idleElapsed (e : Env) : Bool := Config.idleThreshold ≤ e.now - e.idleStamp

/-- `IdleTimeoutElapsed` evaluated (45 R160): a no-op when asleep or when rendering is disabled. -/
def Env.onIdleCheck (e : Env) : Env :=
  if e.idleElapsed ∧ e.power = .awake ∧ e.rendering then
    { e with power := .asleep, rendering := false, effects := e.effects ++ [.renderingDisable] }
  else e

/-- `SelectLink(n)` (45 R161): whatever the sleep state; resets the idle timer; acknowledged at the link's position. -/
def Env.onSelectLink (e : Env) (l : Link) : Env :=
  { e.onActivity with link := l, effects := e.effects ++ [.selectLink l, .acknowledge (Config.ack l)] }

/-- `Disconnect` (45 R162). Whether it resets the idle timer is open: `Config.disconnectResetsIdle`. DESIGN CHOICE, log
entry 15: it hands no collaborator a link-selection request and no acknowledgement; the spec says neither (45 R165). -/
def Env.onDisconnect (e : Env) : Env :=
  { e with
    link := .usb
    idleStamp := if Config.disconnectResetsIdle then e.now else e.idleStamp }

/-- `Unpair(current)` (45 R163): clears the stored pairing of the active peer; the selection stays. DESIGN CHOICE, log
entry 17: it does not reset the idle timer; the spec is silent. -/
def Env.onUnpair (e : Env) : Env :=
  match e.link with
  | .usb => e
  | .peer n => { e with paired := e.paired.set n.val false n.isLt, effects := e.effects ++ [.clearPairing n] }

/-- The radio collaborator has stored a pairing (log entry 6). -/
def Env.onPairingStored (e : Env) (n : Fin Config.nPeers) : Env := { e with paired := e.paired.set n.val true n.isLt }

/-- A poll of the raw status frame (45 R150, R152, R154): a whole frame within the bound overwrites the mirror; a
partial one changes nothing. DESIGN CHOICE, log entry 14: the raw frame overwrites the mirror directly, past codec and
dispatcher, and its bytes are the poll's own and not RX's (open: 45 R167 (c), 90 C4 (c), C7). -/
def Env.onStatusPoll (e : Env) (waited : Nat) (bs : List Byte) : Env :=
  if waited ≤ Config.statusTimeout ∧ bs.length = Config.statusLen then
    e.overwriteMirror (Config.capslockTrue (bs.getD (Config.statusLen - 1) 0))
  else e

/-- One move of the environment's components. -/
def Env.move (e : Env) : Move → Env
  | .elapse d => { e with now := e.now + d }
  | .keyPressed => e.onKeyPressed
  | .idleCheck => e.onIdleCheck
  | .selectLink l => e.onSelectLink l
  | .disconnect => e.onDisconnect
  | .unpair => e.onUnpair
  | .pairingStored n => e.onPairingStored n
  | .statusPoll w bs => e.onStatusPoll w bs

/-- A move changes the environment's components and nothing of the block. -/
def State.moveEnv (s : State) (m : Move) : State := { s with env := s.env.move m }

/-- The environment takes the outputs that `t` has over `s`, oldest first (70 R212, R221). -/
def State.observe (s t : State) : State :=
  { t with env := (t.results.drop s.results.length).foldl Env.react t.env }

end Sys2Proof.Machine
end

