-- ==== Sys2Proof/Machine/Fetch.lean ====
section
/-! DEFINITION. Taking the environment's next move from `inbox` (70 R221): requests are decoded one whole byte string at
a time (30 R70 to R72), bytes of RX from the front (40 R80). Log entry 1. -/

namespace Sys2Proof.Machine

/-- What the next step does. -/
inductive Fetched where
  /-- Nothing is requested. -/
  | idle (s : State)
  /-- Instruction `i` runs in `s`. -/
  | run (i : Instr) (s : State)
  /-- The request has no meaning (60 R184). -/
  | refuse (r : Refusal)
  /-- The reset event. -/
  | reset (s : State)
  /-- A move of the environment's components. -/
  | move (m : Move) (s : State)

/-- The refusal that a decoding error is (60 R176, R184). -/
def refusalOf : DecodeError → Refusal
  | .unknownOp => .unknownOp
  | .malformedRequest => .malformedRequest

/-- Bytes left on RX stay at the front of the inbox; none left, the entry is gone. -/
def rxRest (bs : List Byte) (rest : List Input) : List Input :=
  match bs with
  | [] => rest
  | b :: r => .rx (b :: r) :: rest

/-- The next move. An empty inbox is the end of what the environment has requested so far (70 R222). -/
def fetch (s : State) : Fetched :=
  match s.inbox with
  | [] => .idle s
  | .request _ bs :: rest =>
    match decodeRequest bs with
    | .ok i => .run i { s with inbox := rest }
    | .error e => .refuse (refusalOf e)
  | .rx bs :: rest =>
    match decodeRx bs with
    | some (i, q) => .run i { s with inbox := rxRest q rest }
    | none => .idle { s with inbox := rest }
  | .reset :: rest => .reset { s with inbox := rest }
  | .move m :: rest => .move m { s with inbox := rest }

/-- The context that 20 R49 gives an operation first; the tag of a request placed by `State.withFetchWord`. -/
def homeContext : Instr → Context
  | .feed _ => .byteReceived
  | .ser _ _ => .tick
  | .post _ _ => .hostCommandReceived
  | .drain => .tick
  | .tick => .tick
  | .hostcmd _ => .hostCommandReceived
  | .init => .startUp
  | .flush => .startUp
  | .wireFrame _ _ => .byteReceived
  | .wakeupSeq => .byteReceived

/-- The inbox entry that a table word is: a request, or a wire row's bytes on RX, cut to the instruction's own bytes;
a word no decoder reads is left a request, which the fetch refuses. -/
def tableInput (nbits w : Nat) : Input :=
  let bs := tableBytes nbits w
  match readTableBytes bs with
  | some (true, i, q) => .request (homeContext i) (bs.take (bs.length - q.length))
  | some (false, _, q) => .rx (bs.take (bs.length - q.length))
  | none => .request .startUp (bs.take ((nbits + 7) / 8))

end Sys2Proof.Machine
end

