-- ==== Sys2Proof/Machine/Step.lean ====
section
/-! DEFINITION. One step: the environment's next move, and, after an operation, the environment's reaction to its
outputs. -/

namespace Sys2Proof.Machine

/-- The environment takes the outputs of an operation that ran from `s` (45 R167). -/
def finish (s : State) : Host.Outcome State Fault Refusal → Host.Outcome State Fault Refusal
  | .next t => .next (s.observe t)
  | .fault r => .fault r
  | .refused r => .refused r

/-- One step. With nothing requested it changes nothing (60 R179, 70 R222). -/
def step (s : State) : Host.Outcome State Fault Refusal :=
  match fetch s with
  | .idle t => .next t
  | .run i t => finish t (exec i t)
  | .refuse r => .refused r
  | .reset t => .next t.resetBlock
  | .move m t => .next (t.moveEnv m)

/-- `s` with the table word `w` placed as the environment's very next move (log entry 1). -/
def State.withFetchWord (s : State) (nbits w : Nat) : State := { s with inbox := tableInput nbits w :: s.inbox }

end Sys2Proof.Machine
end

