-- ==== Sys2Proof/Safety.lean ====
section
/-! DEFINITION. The invariants of the block (10_state R16, R23), the terms claims about runs use (70_reset R222), the
assignment of operations to contexts (20_memory R49), and what of a state can be observed (93 U10, U11). -/

namespace Sys2Proof.Machine

/-! Invariants. -/

/-- 10 R16 (a): in the body, the announced length is 1 to 64 and a byte is still missing. -/
def State.BodyOpen (s : State) : Prop :=
  s.rxPos = .awaitBody →
    1 ≤ s.rxExplen.toNat ∧ s.rxExplen.toNat ≤ Config.maxPayload ∧ s.rxCnt.toNat < s.rxExplen.toNat

/-- 10 R23 (b): a pending command's length is at most 64. -/
def State.SlotFits (s : State) : Prop := s.slotOccupied = true → s.slotLen.toNat ≤ Config.maxPayload

/-- Before INIT the parser is idle (40 R85) and nothing has been sent (41 R103, 42 R119). -/
def State.QuietBeforeInit (s : State) : Prop := s.linkReady = false → s.rxPos = .awaitHeader ∧ s.tx = []

/-- After INIT, TX is the wakeup sequence and then whole legal frames back to back (30 R68, 41 R104, 44 R136). -/
def State.TxFramed (s : State) : Prop :=
  s.linkReady = true →
    ∃ fs : List Frame, (∀ f ∈ fs, f.payload.length ≤ Config.maxPayload) ∧
      s.tx = Config.wakeupSeq ++ fs.flatMap frameBytes

/-- The invariants of the machine, true after reset and after every step. -/
structure State.Inv (s : State) : Prop where
  bodyOpen : s.BodyOpen
  slotFits : s.SlotFits
  accWf : s.acc.wf = true
  slotWf : s.slot.wf = true
  quiet : s.QuietBeforeInit
  framed : s.TxFramed

/-! Requests. -/

/-- The requests an operation is not refused in (44 R139): SER and TICK need the link ready, INIT needs it not. -/
def State.accepts (s : State) : Instr → Bool
  | .feed _ => true
  | .ser _ _ => s.linkReady
  | .post _ _ => true
  | .drain => true
  | .tick => s.linkReady
  | .hostcmd _ => true
  | .init => !s.linkReady
  | .flush => true
  | .wireFrame _ _ => true
  | .wakeupSeq => true

/-- The contexts that 20 R49 assigns an operation to. Another context's request is a violation of the environment's
duty, not of the block's rules. -/
def contextsOf : Instr → List Context
  | .feed _ => [.byteReceived, .tick]
  | .ser _ _ => [.tick]
  | .post _ _ => [.hostCommandReceived]
  | .drain => [.tick]
  | .tick => [.tick]
  | .hostcmd _ => [.hostCommandReceived]
  | .init => [.startUp]
  | .flush => [.startUp, .tick]
  | .wireFrame _ _ => [.byteReceived, .tick]
  | .wakeupSeq => [.byteReceived, .tick]

/-- A move of the environment that keeps the assignment of 20 R49. -/
def Input.assigned : Input → Bool
  | .request ctx bs =>
    match decodeRequest bs with
    | .ok i => (contextsOf i).contains ctx
    | .error _ => false
  | .rx _ => true
  | .reset => true
  | .move _ => true

/-- The operations that take from the slot (42 R113, R114). -/
def drains : Instr → Bool
  | .drain => true
  | .tick => true
  | .feed _ => false
  | .ser _ _ => false
  | .post _ _ => false
  | .hostcmd _ => false
  | .init => false
  | .flush => false
  | .wireFrame _ _ => false
  | .wakeupSeq => false

/-- The total length of a request that fits its format, as the table of 30 R70 gives it from byte 0 and the count byte;
`none` where byte 0 is reserved or the count byte is missing. -/
def requestLength : List Byte → Option Nat
  | [] => none
  | op :: r =>
    match op.toNat with
    | 0 => some 2
    | 1 => r[1]?.map (fun n => 3 + n.toNat)
    | 2 => r[1]?.map (fun n => 3 + n.toNat)
    | 3 => some 1
    | 4 => some 1
    | 5 => r[0]?.map (fun n => 2 + n.toNat)
    | 6 => some 1
    | 7 => some 1
    | _ => none

/-! Runs. -/

/-- Operations one after the other (20 R48), stopping at the first that has no next state. -/
def execAll : List Instr → State → Host.Outcome State Fault Refusal
  | [], s => .next s
  | i :: is, s =>
    match exec i s with
    | .next t => execAll is t
    | .fault r => .fault r
    | .refused r => .refused r

/-- 70 R222: no frame in progress and no command pending. -/
def State.Quiescent (s : State) : Prop := s.rxPos = .awaitHeader ∧ s.slotOccupied = false

/-- The frames a list of results delivers, in order (20 R50 (b)). -/
def framesOf (os : List Outputs) : List Frame := os.filterMap (fun o => o.frame)

/-- How many POSTs of a list of results stored a command. -/
def storedCount (os : List Outputs) : Nat := os.countP (fun o => o.postOk == some true)

/-- How many drains of a list of results returned a command. -/
def drainedCount (os : List Outputs) : Nat := os.countP (fun o => o.drained.isSome)

/-- What an operation offers the slot (42 R111, 43 R126): `none` for an operation that gives no `post_ok`, `some none`
for a host command that forwards nothing. -/
def offered : Instr → Option (Option Frame)
  | .post c p => some (some ⟨c, p⟩)
  | .hostcmd b =>
    match readHostCommand b with
    | .short => some none
    | .delegate _ => some none
    | .forward c p => some (some ⟨c, p⟩)
  | .feed _ => none
  | .ser _ _ => none
  | .drain => none
  | .tick => none
  | .init => none
  | .flush => none
  | .wireFrame _ _ => none
  | .wakeupSeq => none

/-- The commands that a run of operations stored: each offer whose `post_ok`, taken in order from the results, is
true. -/
def storedCommands (is : List Instr) (os : List Outputs) : List Frame :=
  ((is.filterMap offered).zip (os.filterMap (fun o => o.postOk))).filterMap (fun q => if q.2 then q.1 else none)

/-- The commands that a list of results returns as drained, in order. -/
def drainedCommands (os : List Outputs) : List Frame := os.filterMap (fun o => o.drained)

/-- Whether a frame's effects update the status mirror (45 R148, R151). -/
def updatesMirror (f : Frame) : Bool := (dispatchFrame f).contains .updateStatusMirror

/-- An outcome with its next state changed; a stop stays as it is. -/
def mapNext (f : State → State) : Host.Outcome State Fault Refusal → Host.Outcome State Fault Refusal
  | .next t => .next (f t)
  | .fault r => .fault r
  | .refused r => .refused r

/-- A run of bytes with no header marker among them (40 R89). -/
def NoMarker (g : List Byte) : Prop := ∀ b ∈ g, b ≠ Config.hdr

/-- The byte stream of 40 R89: each frame with the gap before it, in order. -/
def streamBytes (q : List (List Byte × Frame)) : List Byte := q.flatMap (fun e => e.1 ++ frameBytes e.2)

/-- The results that 40 R89 gives a stream: `None` for every byte but the last of each frame, and there the frame. -/
def streamResults (q : List (List Byte × Frame)) : List Outputs :=
  q.flatMap (fun e => List.replicate (e.1.length + 2 + e.2.payload.length) Outputs.silent ++ [{ frame := some e.2 }])

/-! What the dead data fields cannot show. -/

/-- Two states that agree on everything an operation may read (10 R12 to R15, R20 to R22): the data fields need agree
only where they are live. -/
structure State.SameLive (s t : State) : Prop where
  pos : s.rxPos = t.rxPos
  ready : s.linkReady = t.linkReady
  occupied : s.slotOccupied = t.slotOccupied
  cmd : s.rxPos = .awaitLength ∨ s.rxPos = .awaitBody → s.rxCmd = t.rxCmd
  body : s.rxPos = .awaitBody →
    s.rxExplen = t.rxExplen ∧ s.rxCnt = t.rxCnt ∧ ∀ k < s.rxCnt.toNat, s.acc.read k = t.acc.read k
  pending : s.slotOccupied = true →
    s.slotCmd = t.slotCmd ∧ s.slotLen = t.slotLen ∧ ∀ k < s.slotLen.toNat, s.slot.read k = t.slot.read k
  tx : s.tx = t.tx
  results : s.results = t.results
  inbox : s.inbox = t.inbox
  env : s.env = t.env

/-- Two outcomes of the same kind, with next states that agree on all that is live. -/
def SameOutcome : Host.Outcome State Fault Refusal → Host.Outcome State Fault Refusal → Prop
  | .next s, .next t => s.SameLive t
  | .refused r, .refused q => r = q
  | _, _ => False

/-- Two outcomes of the same kind and reason, whose next states differ at most in the environment's components. -/
def SameButEnv : Host.Outcome State Fault Refusal → Host.Outcome State Fault Refusal → Prop
  | .next s, .next t => t = { s with env := t.env }
  | .fault r, .fault q => r = q
  | .refused r, .refused q => r = q
  | _, _ => False

end Sys2Proof.Machine
end

