-- ==== Sys2Proof/Certificates/Slice0/Obligations.lean ====
section
/-! DEFINITION. The statements about the machine. Each docstring names the rule it formalises, and, where the rule rests
on a decision or an inference of the spec itself, that decision. A result `Outputs.silent` is the outputs of an
operation that drives none of them: FEED with `frame = None`, DRAIN and TICK with `drained = None`, INIT, FLUSH. -/

open Sys2Proof Sys2Proof.Machine

/-! Encoding. -/

/-- 30 R70 (decision D24): eight requests written out as bytes from the table (the words of programs P1 to P4 of
95_test_vectors) decode to the operations they stand for; a reserved code and two malformed requests are refused. -/
def Obligations.RequestWordsDecode : Prop :=
  decodeRequest [0x00, 0x7B] = .ok (.feed 0x7B) ∧
  decodeRequest [0x01, 0x05, 0x03, 0x01, 0x02, 0x03] = .ok (.ser 0x05 [0x01, 0x02, 0x03]) ∧
  decodeRequest [0x02, 0x06, 0x01, 0x09] = .ok (.post 0x06 [0x09]) ∧
  decodeRequest [0x03] = .ok .drain ∧
  decodeRequest [0x04] = .ok .tick ∧
  decodeRequest [0x05, 0x02, 0x02, 0xAA] = .ok (.hostcmd [0x02, 0xAA]) ∧
  decodeRequest [0x06] = .ok .init ∧
  decodeRequest [0x07] = .ok .flush ∧
  decodeRequest [0x08] = .error .unknownOp ∧
  decodeRequest [0x01, 0x05, 0x03, 0x01, 0x02] = .error .malformedRequest ∧
  decodeRequest [0x00] = .error .malformedRequest

/-- 30 R70, R71, R60, R68 (decisions D24, D32; log entry 7 for the two wire rows): decoding an encoded well-formed
instruction gives it back, with every operand; a request at the port, a wire row at the front of RX whatever follows. -/
def Obligations.EncodeThenDecode : Prop :=
  (∀ i : Instr, WellFormed i → i.isRequest = true → decodeRequest (encode i) = .ok i) ∧
  (∀ (i : Instr) (rest : List Byte), WellFormed i → i.isRequest = false →
    decodeRx (encode i ++ rest) = some (i, rest))

/-- 30 R70, R71 (decision D24): a byte string has at most one meaning, and it is its own encoding. -/
def Obligations.DecodeThenEncode : Prop :=
  ∀ (bs : List Byte) (i : Instr), decodeRequest bs = .ok i →
    WellFormed i ∧ i.isRequest = true ∧ encode i = bs

/-- 30 R71, R72 (d), (e); 60 R183 (decisions D24, D35): a request is refused as UnknownOp exactly when its code is 0x08
to 0xFF, and as MalformedRequest exactly when it is empty or its code is known and its length is not its format's. -/
def Obligations.RequestsRefusedExactly : Prop :=
  (∀ bs : List Byte, decodeRequest bs = .error .unknownOp ↔ ∃ op r, bs = op :: r ∧ 8 ≤ op.toNat) ∧
  decodeRequest [] = .error .malformedRequest ∧
  (∀ (op : Byte) (r : List Byte), op.toNat < 8 →
    (decodeRequest (op :: r) = .error .malformedRequest ↔ requestLength (op :: r) ≠ some (r.length + 1)))

/-! FEED. -/

/-- 40 R85 (decision D13): FEED before INIT discards the byte: result None, no state written. -/
def Obligations.FeedBeforeInitDiscards : Prop :=
  ∀ (s : State) (b : Byte), s.linkReady = false →
    exec (.feed b) s = .next { s with results := s.results ++ [Outputs.silent] }

/-- 40 R81 (decision D8): in AwaitHeader the marker starts a frame and any other byte is dropped; rx.pos alone is
written. -/
def Obligations.FeedHuntsForHeader : Prop :=
  ∀ (s : State) (b : Byte), s.linkReady = true → s.rxPos = .awaitHeader →
    exec (.feed b) s = .next { s with
      rxPos := if b = Config.hdr then .awaitCommand else .awaitHeader
      results := s.results ++ [Outputs.silent] }

/-- 40 R82 (decisions D5, D6): in AwaitCommand every byte is taken as the command id, the marker among them. -/
def Obligations.FeedTakesCommandId : Prop :=
  ∀ (s : State) (b : Byte), s.linkReady = true → s.rxPos = .awaitCommand →
    exec (.feed b) s = .next { s with rxCmd := b, rxPos := .awaitLength, results := s.results ++ [Outputs.silent] }

/-- 40 R83 (decisions D7, D9): in AwaitLength a byte above 64 rejects the frame, zero closes it with an empty payload,
and 1 to 64 opens the body with that length and count 0. -/
def Obligations.FeedReadsLength : Prop :=
  ∀ (s : State) (b : Byte), s.linkReady = true → s.rxPos = .awaitLength →
    (64 < b.toNat → exec (.feed b) s = .next { s with rxPos := .awaitHeader, results := s.results ++ [Outputs.silent] }) ∧
    (b.toNat = 0 → exec (.feed b) s = .next { s with
      rxPos := .awaitHeader, results := s.results ++ [{ frame := some ⟨s.rxCmd, []⟩ }] }) ∧
    (1 ≤ b.toNat → b.toNat ≤ 64 → ∃ n : Len7, n.toNat = b.toNat ∧
      exec (.feed b) s = .next { s with
        rxExplen := n, rxCnt := 0, rxPos := .awaitBody, results := s.results ++ [Outputs.silent] })

/-- 40 R84: in AwaitBody, under its precondition, the byte goes to ACC[rx.cnt], rx.cnt counts it, and the last byte
closes the frame with the bytes stored before it and itself; every other byte of ACC and every other field stays. -/
def Obligations.FeedStoresBodyByte : Prop :=
  ∀ (s : State) (b : Byte), s.linkReady = true → s.rxPos = .awaitBody →
    1 ≤ s.rxExplen.toNat → s.rxExplen.toNat ≤ 64 → s.rxCnt.toNat < s.rxExplen.toNat →
    ∃ t, exec (.feed b) s = .next t ∧
      t.acc.read s.rxCnt.toNat = b ∧ (∀ k, k ≠ s.rxCnt.toNat → t.acc.read k = s.acc.read k) ∧
      t.rxCnt.toNat = s.rxCnt.toNat + 1 ∧
      (s.rxCnt.toNat + 1 = s.rxExplen.toNat →
        t = { s with
          acc := t.acc, rxCnt := t.rxCnt, rxPos := .awaitHeader
          results := s.results ++
            [{ frame := some ⟨s.rxCmd, (List.range (s.rxExplen.toNat - 1)).map s.acc.read ++ [b]⟩ }] }) ∧
      (s.rxCnt.toNat + 1 ≠ s.rxExplen.toNat →
        t = { s with acc := t.acc, rxCnt := t.rxCnt, results := s.results ++ [Outputs.silent] })

/-- The frame of FEED (40 R80, R86; 20 R51): it leaves both flags, the relay, TX, the inbox and the environment, writes
rx.cmd only in AwaitCommand and rx.explen only in AwaitLength, and no byte of ACC but ACC[rx.cnt] in AwaitBody. -/
def Obligations.FeedLeavesTheRest : Prop :=
  ∀ (s t : State) (b : Byte), exec (.feed b) s = .next t →
    t.slotOccupied = s.slotOccupied ∧ t.slotCmd = s.slotCmd ∧ t.slotLen = s.slotLen ∧
    (∀ k, t.slot.read k = s.slot.read k) ∧
    t.linkReady = s.linkReady ∧ t.tx = s.tx ∧ t.inbox = s.inbox ∧ t.env = s.env ∧
    (s.rxPos ≠ .awaitCommand → t.rxCmd = s.rxCmd) ∧
    (s.rxPos ≠ .awaitLength → t.rxExplen = s.rxExplen) ∧
    (s.rxPos ≠ .awaitLength → s.rxPos ≠ .awaitBody → t.rxCnt = s.rxCnt) ∧
    (∀ k, (s.rxPos = .awaitBody → k ≠ s.rxCnt.toNat) → t.acc.read k = s.acc.read k)

/-- 40 R88 (inferred by the spec from R81 to R84 and R100): the bytes of a legal frame, received from AwaitHeader with
the link ready, return None for every byte but the last and the frame on the last, and end in AwaitHeader. -/
def Obligations.WireFrameRoundTrip : Prop :=
  ∀ (s : State) (c : Byte) (p : List Byte), s.linkReady = true → s.rxPos = .awaitHeader → p.length ≤ 64 →
    ∃ t, exec (.wireFrame c p) s = .next t ∧ t.rxPos = .awaitHeader ∧ t.rxCmd = c ∧
      t.results = s.results ++ List.replicate (2 + p.length) Outputs.silent ++ [{ frame := some ⟨c, p⟩ }] ∧
      t = { s with
        rxPos := t.rxPos, rxCmd := t.rxCmd, rxExplen := t.rxExplen, rxCnt := t.rxCnt, acc := t.acc
        results := t.results }

/-- 40 R89 (inferred by the spec from R81 and R88): a stream of legal frames with gaps free of the marker returns
exactly the frames, each on its last byte, and None on every other byte. -/
def Obligations.StreamOfFramesParses : Prop :=
  ∀ (s : State) (q : List (List Byte × Frame)) (g : List Byte),
    s.linkReady = true → s.rxPos = .awaitHeader →
    (∀ e ∈ q, NoMarker e.1 ∧ e.2.payload.length ≤ 64) → NoMarker g →
    ∃ t, execAll (feeds (streamBytes q ++ g)) s = .next t ∧ t.rxPos = .awaitHeader ∧
      t.results = s.results ++ streamResults q ++ List.replicate g.length Outputs.silent

/-- 40 R90 (inferred by the spec): with the link ready and 10 R16 (a), at most 66 further bytes bring the parser to
AwaitHeader, whatever they are. -/
def Obligations.ParserIdleWithin66Bytes : Prop :=
  ∀ (s : State) (bs : List Byte), s.linkReady = true → s.BodyOpen → bs.length = 66 →
    ∃ k t, k ≤ 66 ∧ execAll (feeds (bs.take k)) s = .next t ∧ t.rxPos = .awaitHeader

/-- 40 R83, R90 (b) (decision D7): a frame with a length byte above 64 is rejected and a body free of the marker is
hunted through: no frame comes out and the parser ends in AwaitHeader. -/
def Obligations.OversizedFrameRejected : Prop :=
  ∀ (s : State) (c n : Byte) (body : List Byte), s.linkReady = true → s.rxPos = .awaitHeader →
    64 < n.toNat → NoMarker body →
    execAll (feeds (Config.hdr :: c :: n :: body)) s = .next { s with
      rxCmd := c, results := s.results ++ List.replicate (3 + body.length) Outputs.silent }

/-- 40 R85 (decision D13) over any bytes: what arrives before INIT is discarded byte by byte. -/
def Obligations.RxBeforeInitDiscarded : Prop :=
  ∀ (s : State) (bs : List Byte), s.linkReady = false →
    execAll (feeds bs) s = .next { s with results := s.results ++ List.replicate bs.length Outputs.silent }

/-- 30 R68 with 95 V14 (log entry 7: its reception as one instruction; decisions D7 and D13, log entry 9: the reject and
the discard before INIT): the wakeup sequence received from AwaitHeader is no frame: its length byte 0x43 is rejected and
the rest hunted through, leaving only the command id 0x10 in rx.cmd. Before INIT its bytes are discarded. -/
def Obligations.WakeupBytesAreNoFrame : Prop :=
  ∀ s : State,
    (s.linkReady = true → s.rxPos = .awaitHeader →
      exec .wakeupSeq s = .next { s with rxCmd := 0x10, results := s.results ++ List.replicate 11 Outputs.silent }) ∧
    (s.linkReady = false → exec .wakeupSeq s = .next { s with results := s.results ++ List.replicate 11 Outputs.silent })

/-- 30 R74, R60, R68 (log entry 7): receiving a wire row is feeding its bytes one by one, in order. -/
def Obligations.WireRowsAreFeeds : Prop :=
  ∀ (i : Instr) (s : State), i.isRequest = false → exec i s = execAll (feeds (encode i)) s

/-- 40 R80, 10 R16 (log entry 7): in every state that meets 10 R16 (a), FEED and the two wire rows complete, give one
result per byte, keep 10 R16 (a), and leave flags, relay, TX, inbox and environment. -/
def Obligations.ReceptionCompletes : Prop :=
  ∀ (i : Instr) (s : State), s.BodyOpen → (i.isRequest = false ∨ ∃ b, i = .feed b) →
    ∃ t os, exec i s = .next t ∧ t.BodyOpen ∧ t.results = s.results ++ os ∧
      (os.length = if i.isRequest then 1 else (encode i).length) ∧
      t.slotOccupied = s.slotOccupied ∧ t.slotCmd = s.slotCmd ∧ t.slotLen = s.slotLen ∧ t.slot = s.slot ∧
      t.linkReady = s.linkReady ∧ t.tx = s.tx ∧ t.inbox = s.inbox ∧ t.env = s.env

/-! SER. -/

/-- 41 R101: SER, with its encoding: refused before INIT; else OversizedPayload with the length and nothing written; else
the bytes of ser(cmd, p) appended to TX and Ok. Every other field stays. -/
def Obligations.SerTransmitsFrame : Prop :=
  ∀ (s : State) (c : Byte) (p : List Byte),
    encode (.ser c p) = 0x01 :: c :: BitVec.ofNat 8 p.length :: p ∧
    (s.linkReady = false → exec (.ser c p) s = .refused .notReady) ∧
    (s.linkReady = true → 64 < p.length → exec (.ser c p) s = .next { s with
      results := s.results ++ [{ serResult := some (.oversizedPayload p.length) }] }) ∧
    (s.linkReady = true → p.length ≤ 64 → exec (.ser c p) s = .next { s with
      tx := s.tx ++ (Config.hdr :: c :: BitVec.ofNat 8 p.length :: p)
      results := s.results ++ [{ serResult := some .ok }] })

/-- 41 R105 (inferred by the spec): what SER appends to TX, fed to an idle ready parser, gives back the command on the
last byte and None before; and every frame FEED returns can be sent again. -/
def Obligations.SerMirrorsParser : Prop :=
  (∀ (s t u : State) (c : Byte) (p : List Byte), p.length ≤ 64 → exec (.ser c p) s = .next t →
    u.linkReady = true → u.rxPos = .awaitHeader →
    ∃ bs v, t.tx = s.tx ++ bs ∧ execAll (feeds bs) u = .next v ∧
      v.results = u.results ++ List.replicate (bs.length - 1) Outputs.silent ++ [{ frame := some ⟨c, p⟩ }]) ∧
  (∀ (s t : State) (b : Byte) (f : Frame), s.BodyOpen → exec (.feed b) s = .next t →
    t.results = s.results ++ [{ frame := some f }] →
    ∃ u, exec (.ser f.cmd f.payload) t = .next u ∧ u.results = t.results ++ [{ serResult := some .ok }])

/-! POST, DRAIN, TICK. -/

/-- 42 R111: POST, with its encoding: false and nothing written when the payload is over 64 bytes or the slot is
occupied; else the command is stored whole, the flag set, and the result true. Every other field, and every byte of SLOT
past the payload, stays. -/
def Obligations.PostStoresOrDrops : Prop :=
  ∀ (s : State) (c : Byte) (p : List Byte),
    encode (.post c p) = 0x02 :: c :: BitVec.ofNat 8 p.length :: p ∧
    (64 < p.length ∨ s.slotOccupied = true →
      exec (.post c p) s = .next { s with results := s.results ++ [{ postOk := some false }] }) ∧
    (p.length ≤ 64 → s.slotOccupied = false →
      ∃ t, exec (.post c p) s = .next t ∧ t.slotLen.toNat = p.length ∧
        (List.range p.length).map t.slot.read = p ∧ (∀ k, p.length ≤ k → t.slot.read k = s.slot.read k) ∧
        t = { s with
          slotOccupied := true, slotCmd := c, slotLen := t.slotLen, slot := t.slot
          results := s.results ++ [{ postOk := some true }] })

/-- 42 R113: DRAIN, with its encoding: an occupied slot is cleared and its command returned with the activity pulse; an
empty one gives None and no pulse. The slot's data and every other field stay. -/
def Obligations.DrainTakesOrNone : Prop :=
  ∀ s : State,
    encode .drain = [0x03] ∧
    (s.slotOccupied = true → s.slotLen.toNat ≤ 64 → exec .drain s = .next { s with
      slotOccupied := false
      results := s.results ++
        [{ drained := some ⟨s.slotCmd, (List.range s.slotLen.toNat).map s.slot.read⟩, activity := true }] }) ∧
    (s.slotOccupied = false → exec .drain s = .next { s with results := s.results ++ [Outputs.silent] })

/-- 42 R114, R119 (decisions D13, D21): TICK is refused before INIT; with a pending command it clears the slot, appends
the command's frame to TX and pulses activity; with an empty slot it gives None. Every other field stays. -/
def Obligations.TickDrainsAndSends : Prop :=
  ∀ s : State,
    (s.linkReady = false → exec .tick s = .refused .notReady) ∧
    (s.linkReady = true → s.slotOccupied = true → s.slotLen.toNat ≤ 64 → ∃ p : List Byte,
      p = (List.range s.slotLen.toNat).map s.slot.read ∧
      exec .tick s = .next { s with
        slotOccupied := false
        tx := s.tx ++ (Config.hdr :: s.slotCmd :: BitVec.ofNat 8 p.length :: p)
        results := s.results ++ [{ drained := some ⟨s.slotCmd, p⟩, activity := true }] }) ∧
    (s.linkReady = true → s.slotOccupied = false → exec .tick s = .next { s with results := s.results ++ [Outputs.silent] })

/-- 42 R114, 30 R74 (decision D21): TICK's effect is DRAIN followed by SER of what it drained, and that SER is Ok; only
the separate result of the SER is not recorded. -/
def Obligations.TickIsDrainThenSer : Prop :=
  ∀ s : State, s.linkReady = true → s.SlotFits →
    ∃ (u : State) (d : Option Frame), exec .drain s = .next u ∧
      u.results = s.results ++ [{ drained := d, activity := d.isSome }] ∧
      (d = none → exec .tick s = .next u) ∧
      (∀ f, d = some f → ∃ v, exec (.ser f.cmd f.payload) u = .next v ∧
        v.results = u.results ++ [{ serResult := some .ok }] ∧
        exec .tick s = .next { v with results := u.results })

/-- The frame of POST and HOSTCMD (42 R111, 43 R126): parser, link, TX, inbox and environment stay; no byte of ACC
changes; SLOT and its length and command change only when the flag goes from false to true. -/
def Obligations.ProducerLeavesTheRest : Prop :=
  ∀ (i : Instr) (s t : State), ((∃ c p, i = .post c p) ∨ ∃ b, i = .hostcmd b) → exec i s = .next t →
    t.rxPos = s.rxPos ∧ t.rxCmd = s.rxCmd ∧ t.rxExplen = s.rxExplen ∧ t.rxCnt = s.rxCnt ∧
    (∀ k, t.acc.read k = s.acc.read k) ∧ t.linkReady = s.linkReady ∧ t.tx = s.tx ∧
    t.inbox = s.inbox ∧ t.env = s.env ∧
    ((s.slotOccupied = false ∧ t.slotOccupied = true ∧ (∀ k, t.slotLen.toNat ≤ k → t.slot.read k = s.slot.read k)) ∨
      (t.slotOccupied = s.slotOccupied ∧ t.slotCmd = s.slotCmd ∧ t.slotLen = s.slotLen ∧
        ∀ k, t.slot.read k = s.slot.read k))

/-- The frame of DRAIN, TICK, SER, INIT and FLUSH (41 R101, 42 R113, R114, 44 R136, R138): no byte of ACC or SLOT
changes; the data registers stay; rx.pos changes only by INIT and FLUSH, the slot's flag only by DRAIN and TICK, the link
flag only by INIT, TX only by TICK, SER and INIT. -/
def Obligations.NonStoringLeaveTheRest : Prop :=
  ∀ (i : Instr) (s t : State),
    (i = .drain ∨ i = .tick ∨ i = .init ∨ i = .flush ∨ ∃ c p, i = .ser c p) → exec i s = .next t →
    (∀ k, t.acc.read k = s.acc.read k) ∧ (∀ k, t.slot.read k = s.slot.read k) ∧
    t.rxCmd = s.rxCmd ∧ t.rxExplen = s.rxExplen ∧ t.rxCnt = s.rxCnt ∧ t.slotCmd = s.slotCmd ∧ t.slotLen = s.slotLen ∧
    t.inbox = s.inbox ∧ t.env = s.env ∧
    (i ≠ .init → i ≠ .flush → t.rxPos = s.rxPos) ∧
    (i ≠ .drain → i ≠ .tick → t.slotOccupied = s.slotOccupied) ∧
    (i ≠ .init → t.linkReady = s.linkReady) ∧
    (i = .drain ∨ i = .flush → t.tx = s.tx)

/-- 20 R50 (a) (inferred by the spec from R48 and 42 R113): after a POST that stored, whatever operations other than
DRAIN and TICK run, the next DRAIN returns exactly that command, whole. -/
def Obligations.NextDrainReturnsThePost : Prop :=
  ∀ (s t : State) (c : Byte) (p : List Byte) (is : List Instr),
    s.slotOccupied = false → p.length ≤ 64 → (∀ i ∈ is, drains i = false) →
    execAll (.post c p :: is) s = .next t →
    ∃ u, exec .drain t = .next u ∧
      u.results = t.results ++ [{ drained := some ⟨c, p⟩, activity := true }]

/-- 42 R117 (inferred by the spec from R111 and R113), as a count: from an empty slot, the number of true `post_ok`
results is the number of drained commands, plus one if a command is pending at the end. Which commands they are is said
by StoredCommandsAreDrained. -/
def Obligations.AtMostOnePending : Prop :=
  ∀ (s t : State) (is : List Instr), s.slotOccupied = false → execAll is s = .next t →
    ∃ os, t.results = s.results ++ os ∧
      storedCount os = drainedCount os + t.slotOccupied.toNat

/-- 42 R115 (decision D19): a POST and a DRAIN at the same moment, in either order, with the slot occupied, where the
drained command is the one pending, and with it empty. -/
def Obligations.PostAndDrainEitherOrder : Prop :=
  ∀ (s : State) (c : Byte) (p : List Byte), p.length ≤ 64 → s.SlotFits →
    (s.slotOccupied = true → ∀ f : Frame,
      f = ⟨s.slotCmd, (List.range s.slotLen.toNat).map s.slot.read⟩ →
      (∃ t, execAll [.drain, .post c p] s = .next t ∧ t.slotOccupied = true ∧
        t.results = s.results ++ [{ drained := some f, activity := true }, { postOk := some true }]) ∧
      (∃ t, execAll [.post c p, .drain] s = .next t ∧ t.slotOccupied = false ∧
        t.results = s.results ++ [{ postOk := some false }, { drained := some f, activity := true }])) ∧
    (s.slotOccupied = false →
      (∃ t, execAll [.drain, .post c p] s = .next t ∧ t.slotOccupied = true ∧
        t.results = s.results ++ [Outputs.silent, { postOk := some true }]) ∧
      (∃ t, execAll [.post c p, .drain] s = .next t ∧ t.slotOccupied = false ∧
        t.results = s.results ++ [{ postOk := some true }, { drained := some ⟨c, p⟩, activity := true }]))

/-- 42 R116 (decision D20): an operation pulses activity exactly when it returns a drained command, and only DRAIN and
TICK return one. -/
def Obligations.ActivityOnlyFromDrains : Prop :=
  ∀ (i : Instr) (s t : State), exec i s = .next t →
    ∃ os, t.results = s.results ++ os ∧
      ∀ o ∈ os, o.activity = o.drained.isSome ∧ (o.activity = true → drains i = true)

/-! HOSTCMD, INIT, FLUSH. -/

/-- 43 R126, for every value of FWD_SUBCMD: with its encoding, a host command is dropped when it is empty or the
forwarding selector alone, delegated unmodified when its first byte is no selector, and otherwise exactly POST of its
second byte and the rest. -/
def Obligations.HostCommandBranches : Prop :=
  ∀ s : State,
    (∀ b : List Byte, encode (.hostcmd b) = 0x05 :: BitVec.ofNat 8 b.length :: b) ∧
    exec (.hostcmd []) s = .next { s with results := s.results ++ [{ postOk := some false }] } ∧
    (∀ (b : Byte) (r : List Byte), b ≠ Config.fwdSubcmd → exec (.hostcmd (b :: r)) s = .next { s with
      results := s.results ++ [{ postOk := some false, delegated := some (b :: r) }] }) ∧
    exec (.hostcmd [Config.fwdSubcmd]) s = .next { s with results := s.results ++ [{ postOk := some false }] } ∧
    (∀ (c : Byte) (p : List Byte), exec (.hostcmd (Config.fwdSubcmd :: c :: p)) s = exec (.post c p) s)

/-- 43 R126, R127 (b), (c): a forwarding host command stores its command when the slot is empty and the payload fits,
and is lost, with false, when the slot is occupied or the command is longer than 66 bytes. -/
def Obligations.HostForwardStoresOrLost : Prop :=
  ∀ (s : State) (c : Byte) (p : List Byte),
    (p.length ≤ 64 → s.slotOccupied = false → ∃ t,
      exec (.hostcmd (Config.fwdSubcmd :: c :: p)) s = .next t ∧ t.slotOccupied = true ∧ t.slotCmd = c ∧
      (List.range t.slotLen.toNat).map t.slot.read = p ∧ t.results = s.results ++ [{ postOk := some true }]) ∧
    (s.slotOccupied = true ∨ 66 < (Config.fwdSubcmd :: c :: p).length →
      exec (.hostcmd (Config.fwdSubcmd :: c :: p)) s =
        .next { s with results := s.results ++ [{ postOk := some false }] })

/-- 44 R136, R137 (decision D14): the first INIT appends the 11 wakeup bytes, idles the parser and sets link_ready, and
leaves the relay; a second one is refused. -/
def Obligations.InitWakesLinkOnce : Prop :=
  ∀ s : State,
    (s.linkReady = false → exec .init s = .next { s with
      tx := s.tx ++ [0x7B, 0x10, 0x43, 0x10, 0x03, 0x00, 0x00, 0x7D, 0x02, 0x01, 0x02]
      rxPos := .awaitHeader, linkReady := true, results := s.results ++ [Outputs.silent] }) ∧
    (s.linkReady = true → exec .init s = .refused .initTwice)

/-- 44 R138 (decision D12): FLUSH idles the parser and changes nothing else. -/
def Obligations.FlushIdlesParser : Prop :=
  ∀ s : State, exec .flush s = .next { s with rxPos := .awaitHeader, results := s.results ++ [Outputs.silent] }

/-! Rules over all operations. -/

/-- 10 R23 (c), R24 (inferred by the spec): only POST and HOSTCMD set the slot's flag, only DRAIN and TICK clear it, and
only INIT changes link_ready, which it sets. -/
def Obligations.FlagsChangeOnlyByTheirOwners : Prop :=
  ∀ (i : Instr) (s t : State), exec i s = .next t →
    (s.slotOccupied = false → t.slotOccupied = true → (∃ c p, i = .post c p) ∨ ∃ b, i = .hostcmd b) ∧
    (s.slotOccupied = true → t.slotOccupied = false → i = .drain ∨ i = .tick) ∧
    (t.linkReady ≠ s.linkReady → i = .init ∧ t.linkReady = true)

/-- 44 R139 (decisions D13, D34): POST, DRAIN, HOSTCMD and FLUSH do not read link_ready. -/
def Obligations.RelayIndependentOfLink : Prop :=
  ∀ (i : Instr) (s : State) (r : Bool),
    (i = .drain ∨ i = .flush ∨ (∃ c p, i = .post c p) ∨ ∃ b, i = .hostcmd b) →
    exec i { s with linkReady := r } = mapNext (fun t => { t with linkReady := r }) (exec i s)

/-- 60 R184, 44 R139 (decisions D13, D14): an operation is refused exactly as NotReady for SER and TICK before INIT, and
as InitTwice for INIT after it. -/
def Obligations.OperationsRefusedExactly : Prop :=
  ∀ (i : Instr) (s : State) (r : Refusal), exec i s = .refused r ↔
    (((∃ c p, i = .ser c p) ∨ i = .tick) ∧ s.linkReady = false ∧ r = .notReady) ∨
    (i = .init ∧ s.linkReady = true ∧ r = .initTwice)

/-- 10 R29, 41 R104 (decision D15): TX only grows, at its end, and only by SER, TICK and INIT. -/
def Obligations.TxOnlyGrows : Prop :=
  ∀ (i : Instr) (s t : State), exec i s = .next t →
    (∃ bs, t.tx = s.tx ++ bs) ∧ (t.tx ≠ s.tx → (∃ c p, i = .ser c p) ∨ i = .tick ∨ i = .init)

/-! Invariants of every step. -/

/-- 70 R201 (inferred by the spec from the fields' own rules; decision D26): the state after reset meets the
invariants. -/
def Obligations.ResetMeetsInvariants : Prop := State.reset.Inv

/-- 10 R16, R23 (inferred by the spec), 30 R68, 41 R104, 44 R136: every step from a state that meets the invariants leads
to one that does: the body stays open by at least a byte, a pending command fits, the buffers keep their form, nothing is
sent before INIT, and TX is the wakeup sequence and then whole legal frames. -/
def Obligations.StepKeepsInvariants : Prop :=
  ∀ s t : State, s.Inv → step s = .next t → t.Inv

/-- 93 section 3 and 60 R181 (inferred by the spec): from a state that meets the invariants no step is a fault. -/
def Obligations.StepNeverFaults : Prop :=
  ∀ (s : State) (r : Fault), s.Inv → step s ≠ .fault r

/-- 70 R201, 10 R17, R22, 93 U10, U11 (inferred by the spec; decisions D18, D26): states that agree on what is live give
the same results, the same TX and the same refusals, at every step: no value that a data field holds after reset or once
dead can be observed (log entries 2, 3). -/
def Obligations.DeadDataUnobservable : Prop :=
  ∀ s t : State, s.Inv → t.Inv → s.SameLive t → SameOutcome (step s) (step t)

/-- 70 R201 (decision D26): the values the spec gives for reset. -/
def Obligations.ResetValues : Prop :=
  State.reset.rxPos = .awaitHeader ∧ State.reset.slotOccupied = false ∧ State.reset.linkReady = false ∧
  State.reset.tx = [] ∧ State.reset.results = []

/-- 70 R200, R201 (decision D26): the reset event gives the block the same state whatever it was before. The model's
choices in it: the data fields that R201 leaves unspecified are State.reset's zeros (log entries 2 and 3), and the inbox
and the environment's components stay (log entry 10). -/
def Obligations.ResetForgetsTheBlock : Prop :=
  ∀ (s : State) (rest : List Input), s.inbox = .reset :: rest →
    step s = .next { State.reset with inbox := rest, env := s.env }

/-! The step. -/

/-- 30 R70 to R72, 60 R184, and for bytes on RX 10 R28, 40 R80, 30 R74 (log entries 1, 5, and 7 for the grouping of a
whole frame or the wakeup sequence at the front of RX): a request that decodes to an instruction makes the step that instruction's
exec, in the state with the request taken, and then the environment's reaction to the new results; a request that does
not decode refuses the run by name; bytes on RX run what stands at their front; an entry with no bytes is dropped; an empty inbox changes nothing. -/
def Obligations.StepRunsDecodedInstruction : Prop :=
  (∀ (s : State) (ctx : Context) (bs : List Byte) (rest : List Input) (i : Instr),
    s.inbox = .request ctx bs :: rest → decodeRequest bs = .ok i →
    step s = mapNext (fun t => { t with env := (t.results.drop s.results.length).foldl Env.react t.env })
      (exec i { s with inbox := rest })) ∧
  (∀ (s : State) (bs q : List Byte) (rest : List Input) (i : Instr),
    s.inbox = .rx bs :: rest → decodeRx bs = some (i, q) →
    step s = mapNext (fun t => { t with env := (t.results.drop s.results.length).foldl Env.react t.env })
      (exec i { s with inbox := if q = [] then rest else .rx q :: rest })) ∧
  (∀ (s : State) (ctx : Context) (bs : List Byte) (rest : List Input),
    s.inbox = .request ctx bs :: rest →
    (decodeRequest bs = .error .unknownOp → step s = .refused .unknownOp) ∧
    (decodeRequest bs = .error .malformedRequest → step s = .refused .malformedRequest)) ∧
  (∀ (s : State) (rest : List Input), s.inbox = .rx [] :: rest → step s = .next { s with inbox := rest }) ∧
  (∀ s : State, s.inbox = [] → step s = .next s)

/-- 60 R190 (decision D27): what a request does is the same whatever context makes it. -/
def Obligations.ContextDoesNotMatter : Prop :=
  ∀ (s : State) (c c' : Context) (bs : List Byte) (rest : List Input),
    step { s with inbox := .request c bs :: rest } = step { s with inbox := .request c' bs :: rest }

/-- 45 R167 (d), 60 R193 (inferred by the spec): no part of the environment's components decides what a step does to the
block or whether it stops. -/
def Obligations.EnvironmentGatesNothing : Prop :=
  ∀ (s : State) (e : Env), SameButEnv (step s) (step { s with env := e })

/-! The environment's components (outside the block: log entry 5). -/

/-- 45 R156, R157, R165 (log entry 6 for the record of effects): KeyPressed resets the idle timer; awake, it does nothing else; asleep, it wakes on the same link and
enables rendering. -/
def Obligations.KeyPressWakes : Prop :=
  ∀ (s : State) (rest : List Input), s.inbox = .move .keyPressed :: rest →
    (s.env.power = .awake → step s = .next { s with
      inbox := rest, env := { s.env with idleStamp := s.env.now } }) ∧
    (s.env.power = .asleep → step s = .next { s with
      inbox := rest
      env := { s.env with
        power := .awake, rendering := true, idleStamp := s.env.now, effects := s.env.effects ++ [.renderingEnable] } })

/-- 45 R160 (log entry 6: the evaluation is an input of its own): the idle evaluation sleeps and disables rendering exactly when awake, rendering, and idle for the
threshold; otherwise it is a no-op, so a second evaluation right after it changes nothing. -/
def Obligations.IdleSleepsOnce : Prop :=
  ∀ (s : State) (rest : List Input), s.inbox = .move .idleCheck :: .move .idleCheck :: rest →
    (s.env.power = .awake ∧ s.env.rendering = true ∧ Config.idleThreshold ≤ s.env.now - s.env.idleStamp →
      core.run 2 s = .next { s with
        inbox := rest
        env := { s.env with
          power := .asleep, rendering := false, effects := s.env.effects ++ [.renderingDisable] } }) ∧
    (s.env.power = .asleep ∨ s.env.rendering = false ∨ s.env.now - s.env.idleStamp < Config.idleThreshold →
      core.run 2 s = .next { s with inbox := rest })

/-- 45 R159, R160, R166, 42 R116 (decision D20; log entry 5 for the moment of the reset): a DRAIN that returns a command resets the idle timer, so that after a
further time `d` the idle evaluation sleeps exactly when `d` reaches the threshold. -/
def Obligations.ForwardedCommandCountsAsActivity : Prop :=
  ∀ (s : State) (ctx : Context) (d : Nat) (rest : List Input),
    s.inbox = .request ctx [0x03] :: .move (.elapse d) :: .move .idleCheck :: rest →
    s.slotOccupied = true → s.slotLen.toNat ≤ 64 → s.env.power = .awake → s.env.rendering = true →
    ∃ t, core.run 3 s = .next t ∧ t.slotOccupied = false ∧ t.env.idleStamp = s.env.now ∧
      (t.env.power = if Config.idleThreshold ≤ d then .asleep else .awake) ∧ t.env.link = s.env.link

/-- 45 R161, R162, R163, R165 (log entries 6, 8, 15, and 17 for Unpair's leaving the idle timer): SelectLink switches the link in every sleep state, resets the idle timer and is
acknowledged; Disconnect forces USB; Unpair clears the active peer's pairing and keeps the selection. Sleep state, mirror
and block stay. -/
def Obligations.LinkMoves : Prop :=
  ∀ (s : State) (rest : List Input),
    (∀ l, s.inbox = .move (.selectLink l) :: rest → step s = .next { s with
      inbox := rest
      env := { s.env with
        link := l, idleStamp := s.env.now
        effects := s.env.effects ++ [.selectLink l, .acknowledge (Config.ack l)] } }) ∧
    (s.inbox = .move .disconnect :: rest → ∃ t, step s = .next t ∧ t.env.link = .usb ∧
      (t.env.idleStamp = s.env.now ∨ t.env.idleStamp = s.env.idleStamp) ∧
      t = { s with inbox := rest, env := { s.env with link := .usb, idleStamp := t.env.idleStamp } }) ∧
    (s.inbox = .move .unpair :: rest →
      (s.env.link = .usb → step s = .next { s with inbox := rest }) ∧
      (∀ n, s.env.link = .peer n → ∃ t, step s = .next t ∧ t.env.link = .peer n ∧
        t.env.paired[n.val]'n.isLt = false ∧
        (∀ k : Fin Config.nPeers, k ≠ n → t.env.paired[k.val]'k.isLt = s.env.paired[k.val]'k.isLt) ∧
        t = { s with
          inbox := rest
          env := { s.env with paired := t.env.paired, effects := s.env.effects ++ [.clearPairing n] } }))

/-- 45 R151, R152, R153, R154 (log entries 5, 6, 14): the mirror changes only when a dispatched frame's effects update it or a poll
reads a whole status frame within its bound; until then it holds. That these do
overwrite it is said by MirrorIsOverwritten. -/
def Obligations.MirrorHoldsUntilOverwritten : Prop :=
  ∀ s t : State, step s = .next t → t.env.mirror ≠ s.env.mirror →
    (∃ w bs rest, s.inbox = .move (.statusPoll w bs) :: rest ∧ w ≤ 10 ∧ bs.length = 11) ∨
    (∃ os f, t.results = s.results ++ os ∧ f ∈ framesOf os ∧ .updateStatusMirror ∈ dispatchFrame f)

/-- 45 R145, R146, R147 (log entry 5: in the same step; log entry 6: the records): the frame a FEED returns is dispatched in the same step; its effects are recorded in the order
of its effect list, which for an unrecognised command id is empty, and such an id is logged. -/
def Obligations.FrameIsDispatched : Prop :=
  ∀ (s t : State) (ctx : Context) (b : Byte) (rest : List Input) (f : Frame),
    s.inbox = .request ctx [0x00, b] :: rest → step s = .next t →
    t.results = s.results ++ [{ frame := some f }] →
    t.env.effects = s.env.effects ++
      (if Config.knownCommand f.cmd then Config.dispatch f else []).map (.dispatched f) ∧
    t.env.unknownLog = s.env.unknownLog ++ (if Config.knownCommand f.cmd then [] else [f.cmd])

/-- 42 R117 (inferred by the spec from R111 and R113): from an empty slot, over any operations that complete, the
commands stored by POST and HOSTCMD, in order and whole, are the commands drained and then the one still pending. -/
def Obligations.StoredCommandsAreDrained : Prop :=
  ∀ (s t : State) (is : List Instr), s.slotOccupied = false → execAll is s = .next t →
    ∃ os, t.results = s.results ++ os ∧
      storedCommands is os = drainedCommands os ++
        (if t.slotOccupied then [⟨t.slotCmd, (List.range t.slotLen.toNat).map t.slot.read⟩] else [])

/-- 45 R151, R152, R154 (log entries 5, 6, 8, 14): a poll that reads 11 bytes within 10 time units overwrites the mirror's
pair with its last byte's boolean and a fresh link-index, and any other poll changes nothing; after every other step,
the pair is the boolean and a fresh link-index of the last new frame with the mirror's update among its effects, and
unchanged if there is none. -/
def Obligations.MirrorIsOverwritten : Prop :=
  (∀ (s : State) (w : Nat) (bs : List Byte) (rest : List Input), s.inbox = .move (.statusPoll w bs) :: rest →
    (∀ b : Byte, w ≤ 10 → bs.length = 11 → bs[10]? = some b → step s = .next { s with
      inbox := rest
      env := { s.env with
        mirror := ⟨Config.capslockTrue b, Config.linkIndex s.env.draws⟩, draws := s.env.draws + 1 } }) ∧
    (10 < w ∨ bs.length ≠ 11 → step s = .next { s with inbox := rest })) ∧
  (∀ (s t : State) (os : List Outputs), (∀ w bs rest, s.inbox ≠ .move (.statusPoll w bs) :: rest) →
    step s = .next t → t.results = s.results ++ os →
    match ((framesOf os).filter updatesMirror).getLast? with
    | some f => ∃ n, s.env.draws ≤ n ∧ t.env.draws = n + 1 ∧
        t.env.mirror = ⟨Config.frameCapslock f, Config.linkIndex n⟩
    | none => t.env.mirror = s.env.mirror)
end

