-- ==== Sys2Proof/Laws/Decode.lean ====
section
/-! SUPPORT. The decoder's parts: operation codes, counted operands, count bytes. -/

namespace Sys2Proof

@[simp] theorem opOf_code (o : Op) : opOf o.code = some o := by cases o <;> decide

theorem code_of_opOf {b : Byte} {o : Op} (h : opOf b = some o) : o.code = b := by
  simpa using List.find?_some h

theorem toNat_countByte {n : Nat} (h : n ≤ 255) : (countByte n).toNat = n := by
  simp only [countByte, BitVec.toNat_ofNat]
  omega

theorem countByte_toNat (b : Byte) : countByte b.toNat = b := by simp [countByte]

/-- A counted run of bytes is read back from what follows its count. -/
theorem takeBytes_append (p r : List Byte) : takeBytes p.length (p ++ r) = some (p, r) := by
  simp [takeBytes]

theorem takeBytes_some {n : Nat} {bs p r : List Byte} (h : takeBytes n bs = some (p, r)) :
    bs = p ++ r ∧ p.length = n := by
  unfold takeBytes at h
  split at h
  · cases h
    simp_all
  · cases h

end Sys2Proof
end

