-- ==== Sys2Proof/Laws/Memory.lean ====
section
/-! SUPPORT. Buffers: a read after a write, what a write leaves alone, and that every write keeps the canonical form. -/

namespace Sys2Proof.Machine

theorem Memory.read_insert (m : Memory) (i j : Nat) (v : Byte) :
    (m.insert i v).read j = if j = i then v else m.read j := by
  induction m with
  | nil => simp only [insert, read, eq_comm]
  | cons e m ih =>
    obtain ⟨a, w⟩ := e
    rcases Nat.lt_trichotomy i a with h | h | h
    · simp only [insert, h, if_true, read, eq_comm]
    · subst h
      by_cases hj : j = i
      · subst hj; simp [insert, read]
      · simp [insert, read, hj, Ne.symm hj]
    · have h1 : ¬ i < a := by omega
      have h2 : ¬ i = a := by omega
      simp only [insert, h1, h2, if_false, read, ih]
      by_cases hj : a = j
      · have : j ≠ i := by omega
        simp [hj, this]
      · simp [hj]

theorem Memory.read_erase (m : Memory) (i j : Nat) :
    (m.erase i).read j = if j = i then fill else m.read j := by
  induction m with
  | nil => simp [erase, read]
  | cons e m ih =>
    obtain ⟨a, w⟩ := e
    by_cases h : a = i
    · subst h
      by_cases hj : j = a
      · subst hj; simpa [erase] using ih
      · simp [erase, ih, hj, read, Ne.symm hj]
    · by_cases hj : a = j
      · subst hj; simp [erase, h, read]
      · simp [erase, h, read, hj, ih]

/-- A read gives the byte written at its own index and is unchanged at every other. -/
theorem Memory.read_write (m : Memory) (i j : Nat) (v : Byte) :
    (m.write i v).read j = if j = i then v else m.read j := by
  unfold write
  split
  · rename_i h; rw [read_erase, h]
  · exact read_insert m i j v

@[simp] theorem Memory.read_write_same (m : Memory) (i : Nat) (v : Byte) : (m.write i v).read i = v := by
  simp [read_write]

theorem Memory.read_write_ne (m : Memory) {i j : Nat} (v : Byte) (h : j ≠ i) : (m.write i v).read j = m.read j := by
  simp [read_write, h]

@[simp] theorem Memory.length_readFrom (m : Memory) (n : Nat) : ∀ i, (m.readFrom i n).length = n := by
  induction n with
  | zero => intro i; rfl
  | succ n ih => intro i; simp [readFrom, ih]

@[simp] theorem Memory.length_readBytes (m : Memory) (n : Nat) : (m.readBytes n).length = n := length_readFrom m n 0

/-- A run of reads depends on the bytes it reads and on nothing else. -/
theorem Memory.readFrom_congr {m m' : Memory} (n : Nat) :
    ∀ i, (∀ k, i ≤ k → k < i + n → m.read k = m'.read k) → m.readFrom i n = m'.readFrom i n := by
  induction n with
  | zero => intro i _; rfl
  | succ n ih =>
    intro i h
    simp only [readFrom]
    rw [h i (by omega) (by omega), ih (i + 1) (fun k h1 h2 => h k (by omega) (by omega))]

theorem Memory.readBytes_congr {m m' : Memory} {n : Nat} (h : ∀ k < n, m.read k = m'.read k) :
    m.readBytes n = m'.readBytes n := readFrom_congr n 0 (fun k _ hk => h k (by omega))

theorem Memory.readFrom_succ (m : Memory) (n : Nat) :
    ∀ i, m.readFrom i (n + 1) = m.readFrom i n ++ [m.read (i + n)] := by
  induction n with
  | zero => intro i; simp [readFrom]
  | succ n ih =>
    intro i
    rw [readFrom, ih (i + 1), readFrom, List.cons_append, show i + 1 + n = i + (n + 1) by omega]

theorem Memory.readBytes_succ (m : Memory) (n : Nat) : m.readBytes (n + 1) = m.readBytes n ++ [m.read n] := by
  simpa [readBytes] using readFrom_succ m n 0

/-- A run of writes changes only the indices it covers. -/
theorem Memory.read_writeFrom_outside (bs : List Byte) :
    ∀ (m : Memory) (i j : Nat), j < i ∨ i + bs.length ≤ j → (m.writeFrom i bs).read j = m.read j := by
  induction bs with
  | nil => intro m i j _; rfl
  | cons b bs ih =>
    intro m i j h
    simp only [List.length_cons] at h
    rw [writeFrom, ih (m.write i b) (i + 1) j (by omega), read_write_ne m b (by omega)]

/-- A run of writes is read back whole. -/
theorem Memory.readFrom_writeFrom (bs : List Byte) :
    ∀ (m : Memory) (i : Nat), (m.writeFrom i bs).readFrom i bs.length = bs := by
  induction bs with
  | nil => intro m i; rfl
  | cons b bs ih =>
    intro m i
    rw [writeFrom, List.length_cons, readFrom, ih, read_writeFrom_outside bs _ _ _ (by omega), read_write_same]

theorem Memory.readBytes_writeFrom (m : Memory) (bs : List Byte) : (m.writeFrom 0 bs).readBytes bs.length = bs :=
  readFrom_writeFrom bs m 0

theorem Memory.wfFrom_weaken {m : Memory} {lo lo' : Option Nat} (h : ∀ l ∈ lo', ∃ k ∈ lo, l ≤ k)
    (hm : wfFrom lo m = true) : wfFrom lo' m = true := by
  cases m with
  | nil => rfl
  | cons e m =>
    obtain ⟨a, v⟩ := e
    simp only [wfFrom, Bool.and_eq_true, decide_eq_true_eq] at hm ⊢
    refine ⟨⟨⟨fun l hl => ?_, hm.1.1.2⟩, hm.1.2⟩, hm.2⟩
    obtain ⟨k, hk, hlk⟩ := h l hl
    have := hm.1.1.1 k hk
    omega

theorem Memory.wfFrom_insert {m : Memory} {i : Nat} {v : Byte} (hi : i < Config.maxPayload) (hv : v ≠ fill) :
    ∀ {lo : Option Nat}, (∀ l ∈ lo, l < i) → wfFrom lo m = true → wfFrom lo (m.insert i v) = true := by
  induction m with
  | nil => intro lo hlo _; simpa [insert, wfFrom, hi, hv] using hlo
  | cons e m ih =>
    obtain ⟨a, w⟩ := e
    intro lo hlo hm
    simp only [wfFrom, Bool.and_eq_true, decide_eq_true_eq, bne_iff_ne] at hm
    simp only [insert]
    split
    · simp only [wfFrom, Bool.and_eq_true, decide_eq_true_eq, bne_iff_ne]
      refine ⟨⟨⟨hlo, hi⟩, hv⟩, ⟨⟨?_, hm.1.1.2⟩, hm.1.2⟩, hm.2⟩
      simpa using ‹i < a›
    · split
      · subst i
        simp only [wfFrom, Bool.and_eq_true, decide_eq_true_eq, bne_iff_ne]
        exact ⟨⟨⟨hlo, hi⟩, hv⟩, hm.2⟩
      · simp only [wfFrom, Bool.and_eq_true, decide_eq_true_eq, bne_iff_ne]
        refine ⟨⟨⟨hm.1.1.1, hm.1.1.2⟩, hm.1.2⟩, ih ?_ hm.2⟩
        simp only [Option.mem_def, Option.some.injEq, forall_eq']
        omega

theorem Memory.wfFrom_erase {m : Memory} {i : Nat} :
    ∀ {lo : Option Nat}, wfFrom lo m = true → wfFrom lo (m.erase i) = true := by
  induction m with
  | nil => intro lo _; rfl
  | cons e m ih =>
    obtain ⟨a, w⟩ := e
    intro lo hm
    simp only [wfFrom, Bool.and_eq_true, decide_eq_true_eq, bne_iff_ne] at hm
    simp only [erase]
    split
    · refine ih (wfFrom_weaken ?_ hm.2)
      intro l hl
      exact ⟨a, rfl, Nat.le_of_lt (hm.1.1.1 l hl)⟩
    · simp only [wfFrom, Bool.and_eq_true, decide_eq_true_eq, bne_iff_ne]
      exact ⟨hm.1, ih hm.2⟩

/-- A write at an index that exists keeps the canonical form. -/
theorem Memory.wf_write {m : Memory} {i : Nat} (v : Byte) (hi : i < Config.maxPayload) (h : m.wf = true) :
    (m.write i v).wf = true := by
  unfold write
  split
  · exact wfFrom_erase h
  · exact wfFrom_insert hi ‹_› (by simp) h

/-- A run of writes at indices that exist keeps the canonical form. -/
theorem Memory.wf_writeFrom (bs : List Byte) :
    ∀ {m : Memory} {i : Nat}, i + bs.length ≤ Config.maxPayload → m.wf = true → (m.writeFrom i bs).wf = true := by
  induction bs with
  | nil => intro m i _ h; exact h
  | cons b bs ih =>
    intro m i hi h
    simp only [List.length_cons] at hi
    exact ih (by omega) (wf_write b (by omega) h)

/-- The buffers after reset are in canonical form. -/
theorem Memory.wf_reset : State.reset.acc.wf = true ∧ State.reset.slot.wf = true := by decide

end Sys2Proof.Machine
end

