-- ==== Sys2Proof/Laws/State.lean ====
section
/-! SUPPORT. What each named update of the state leaves in each field. -/

namespace Sys2Proof.Machine

variable (s : State)

/-! respond: `result v` (00 R8). -/

@[simp] theorem State.respond_rxPos (o : Outputs) : (s.respond o).rxPos = s.rxPos := rfl
@[simp] theorem State.respond_rxCmd (o : Outputs) : (s.respond o).rxCmd = s.rxCmd := rfl
@[simp] theorem State.respond_rxExplen (o : Outputs) : (s.respond o).rxExplen = s.rxExplen := rfl
@[simp] theorem State.respond_rxCnt (o : Outputs) : (s.respond o).rxCnt = s.rxCnt := rfl
@[simp] theorem State.respond_acc (o : Outputs) : (s.respond o).acc = s.acc := rfl
@[simp] theorem State.respond_slotOccupied (o : Outputs) : (s.respond o).slotOccupied = s.slotOccupied := rfl
@[simp] theorem State.respond_slotCmd (o : Outputs) : (s.respond o).slotCmd = s.slotCmd := rfl
@[simp] theorem State.respond_slotLen (o : Outputs) : (s.respond o).slotLen = s.slotLen := rfl
@[simp] theorem State.respond_slot (o : Outputs) : (s.respond o).slot = s.slot := rfl
@[simp] theorem State.respond_linkReady (o : Outputs) : (s.respond o).linkReady = s.linkReady := rfl
@[simp] theorem State.respond_tx (o : Outputs) : (s.respond o).tx = s.tx := rfl
@[simp] theorem State.respond_results (o : Outputs) : (s.respond o).results = s.results ++ [o] := rfl
@[simp] theorem State.respond_inbox (o : Outputs) : (s.respond o).inbox = s.inbox := rfl
@[simp] theorem State.respond_env (o : Outputs) : (s.respond o).env = s.env := rfl

/-! raise: `raise` (60 R181). -/

@[simp] theorem State.raise_rxPos (o : Outputs) : (s.raise o).rxPos = s.rxPos := rfl
@[simp] theorem State.raise_rxCmd (o : Outputs) : (s.raise o).rxCmd = s.rxCmd := rfl
@[simp] theorem State.raise_rxExplen (o : Outputs) : (s.raise o).rxExplen = s.rxExplen := rfl
@[simp] theorem State.raise_rxCnt (o : Outputs) : (s.raise o).rxCnt = s.rxCnt := rfl
@[simp] theorem State.raise_acc (o : Outputs) : (s.raise o).acc = s.acc := rfl
@[simp] theorem State.raise_slotOccupied (o : Outputs) : (s.raise o).slotOccupied = s.slotOccupied := rfl
@[simp] theorem State.raise_slotCmd (o : Outputs) : (s.raise o).slotCmd = s.slotCmd := rfl
@[simp] theorem State.raise_slotLen (o : Outputs) : (s.raise o).slotLen = s.slotLen := rfl
@[simp] theorem State.raise_slot (o : Outputs) : (s.raise o).slot = s.slot := rfl
@[simp] theorem State.raise_linkReady (o : Outputs) : (s.raise o).linkReady = s.linkReady := rfl
@[simp] theorem State.raise_tx (o : Outputs) : (s.raise o).tx = s.tx := rfl
@[simp] theorem State.raise_results (o : Outputs) : (s.raise o).results = s.results ++ [o] := rfl
@[simp] theorem State.raise_inbox (o : Outputs) : (s.raise o).inbox = s.inbox := rfl
@[simp] theorem State.raise_env (o : Outputs) : (s.raise o).env = s.env := rfl

/-! emit: `emit_tx` (10 R29). -/

@[simp] theorem State.emit_rxPos (bs : List Byte) : (s.emit bs).rxPos = s.rxPos := rfl
@[simp] theorem State.emit_rxCmd (bs : List Byte) : (s.emit bs).rxCmd = s.rxCmd := rfl
@[simp] theorem State.emit_rxExplen (bs : List Byte) : (s.emit bs).rxExplen = s.rxExplen := rfl
@[simp] theorem State.emit_rxCnt (bs : List Byte) : (s.emit bs).rxCnt = s.rxCnt := rfl
@[simp] theorem State.emit_acc (bs : List Byte) : (s.emit bs).acc = s.acc := rfl
@[simp] theorem State.emit_slotOccupied (bs : List Byte) : (s.emit bs).slotOccupied = s.slotOccupied := rfl
@[simp] theorem State.emit_slotCmd (bs : List Byte) : (s.emit bs).slotCmd = s.slotCmd := rfl
@[simp] theorem State.emit_slotLen (bs : List Byte) : (s.emit bs).slotLen = s.slotLen := rfl
@[simp] theorem State.emit_slot (bs : List Byte) : (s.emit bs).slot = s.slot := rfl
@[simp] theorem State.emit_linkReady (bs : List Byte) : (s.emit bs).linkReady = s.linkReady := rfl
@[simp] theorem State.emit_tx (bs : List Byte) : (s.emit bs).tx = s.tx ++ bs := rfl
@[simp] theorem State.emit_results (bs : List Byte) : (s.emit bs).results = s.results := rfl
@[simp] theorem State.emit_inbox (bs : List Byte) : (s.emit bs).inbox = s.inbox := rfl
@[simp] theorem State.emit_env (bs : List Byte) : (s.emit bs).env = s.env := rfl

/-! send: `emit_tx` of a serialized frame (41 R101). -/

@[simp] theorem State.send_rxPos (f : Frame) : (s.send f).rxPos = s.rxPos := rfl
@[simp] theorem State.send_rxCmd (f : Frame) : (s.send f).rxCmd = s.rxCmd := rfl
@[simp] theorem State.send_rxExplen (f : Frame) : (s.send f).rxExplen = s.rxExplen := rfl
@[simp] theorem State.send_rxCnt (f : Frame) : (s.send f).rxCnt = s.rxCnt := rfl
@[simp] theorem State.send_acc (f : Frame) : (s.send f).acc = s.acc := rfl
@[simp] theorem State.send_slotOccupied (f : Frame) : (s.send f).slotOccupied = s.slotOccupied := rfl
@[simp] theorem State.send_slotCmd (f : Frame) : (s.send f).slotCmd = s.slotCmd := rfl
@[simp] theorem State.send_slotLen (f : Frame) : (s.send f).slotLen = s.slotLen := rfl
@[simp] theorem State.send_slot (f : Frame) : (s.send f).slot = s.slot := rfl
@[simp] theorem State.send_linkReady (f : Frame) : (s.send f).linkReady = s.linkReady := rfl
@[simp] theorem State.send_tx (f : Frame) : (s.send f).tx = s.tx ++ frameBytes f := rfl
@[simp] theorem State.send_results (f : Frame) : (s.send f).results = s.results := rfl
@[simp] theorem State.send_inbox (f : Frame) : (s.send f).inbox = s.inbox := rfl
@[simp] theorem State.send_env (f : Frame) : (s.send f).env = s.env := rfl

/-! setPos: `rx.pos <- p`. -/

@[simp] theorem State.setPos_rxPos (p : Position) : (s.setPos p).rxPos = p := rfl
@[simp] theorem State.setPos_rxCmd (p : Position) : (s.setPos p).rxCmd = s.rxCmd := rfl
@[simp] theorem State.setPos_rxExplen (p : Position) : (s.setPos p).rxExplen = s.rxExplen := rfl
@[simp] theorem State.setPos_rxCnt (p : Position) : (s.setPos p).rxCnt = s.rxCnt := rfl
@[simp] theorem State.setPos_acc (p : Position) : (s.setPos p).acc = s.acc := rfl
@[simp] theorem State.setPos_slotOccupied (p : Position) : (s.setPos p).slotOccupied = s.slotOccupied := rfl
@[simp] theorem State.setPos_slotCmd (p : Position) : (s.setPos p).slotCmd = s.slotCmd := rfl
@[simp] theorem State.setPos_slotLen (p : Position) : (s.setPos p).slotLen = s.slotLen := rfl
@[simp] theorem State.setPos_slot (p : Position) : (s.setPos p).slot = s.slot := rfl
@[simp] theorem State.setPos_linkReady (p : Position) : (s.setPos p).linkReady = s.linkReady := rfl
@[simp] theorem State.setPos_tx (p : Position) : (s.setPos p).tx = s.tx := rfl
@[simp] theorem State.setPos_results (p : Position) : (s.setPos p).results = s.results := rfl
@[simp] theorem State.setPos_inbox (p : Position) : (s.setPos p).inbox = s.inbox := rfl
@[simp] theorem State.setPos_env (p : Position) : (s.setPos p).env = s.env := rfl

/-! latchCmd: 40 R82. -/

@[simp] theorem State.latchCmd_rxPos (b : Byte) : (s.latchCmd b).rxPos = .awaitLength := rfl
@[simp] theorem State.latchCmd_rxCmd (b : Byte) : (s.latchCmd b).rxCmd = b := rfl
@[simp] theorem State.latchCmd_rxExplen (b : Byte) : (s.latchCmd b).rxExplen = s.rxExplen := rfl
@[simp] theorem State.latchCmd_rxCnt (b : Byte) : (s.latchCmd b).rxCnt = s.rxCnt := rfl
@[simp] theorem State.latchCmd_acc (b : Byte) : (s.latchCmd b).acc = s.acc := rfl
@[simp] theorem State.latchCmd_slotOccupied (b : Byte) : (s.latchCmd b).slotOccupied = s.slotOccupied := rfl
@[simp] theorem State.latchCmd_slotCmd (b : Byte) : (s.latchCmd b).slotCmd = s.slotCmd := rfl
@[simp] theorem State.latchCmd_slotLen (b : Byte) : (s.latchCmd b).slotLen = s.slotLen := rfl
@[simp] theorem State.latchCmd_slot (b : Byte) : (s.latchCmd b).slot = s.slot := rfl
@[simp] theorem State.latchCmd_linkReady (b : Byte) : (s.latchCmd b).linkReady = s.linkReady := rfl
@[simp] theorem State.latchCmd_tx (b : Byte) : (s.latchCmd b).tx = s.tx := rfl
@[simp] theorem State.latchCmd_results (b : Byte) : (s.latchCmd b).results = s.results := rfl
@[simp] theorem State.latchCmd_inbox (b : Byte) : (s.latchCmd b).inbox = s.inbox := rfl
@[simp] theorem State.latchCmd_env (b : Byte) : (s.latchCmd b).env = s.env := rfl

/-! beginBody: 40 R83. -/

@[simp] theorem State.beginBody_rxPos (n : Nat) : (s.beginBody n).rxPos = .awaitBody := rfl
@[simp] theorem State.beginBody_rxCmd (n : Nat) : (s.beginBody n).rxCmd = s.rxCmd := rfl
@[simp] theorem State.beginBody_rxExplen (n : Nat) : (s.beginBody n).rxExplen = len7 n := rfl
@[simp] theorem State.beginBody_rxCnt (n : Nat) : (s.beginBody n).rxCnt = 0 := rfl
@[simp] theorem State.beginBody_acc (n : Nat) : (s.beginBody n).acc = s.acc := rfl
@[simp] theorem State.beginBody_slotOccupied (n : Nat) : (s.beginBody n).slotOccupied = s.slotOccupied := rfl
@[simp] theorem State.beginBody_slotCmd (n : Nat) : (s.beginBody n).slotCmd = s.slotCmd := rfl
@[simp] theorem State.beginBody_slotLen (n : Nat) : (s.beginBody n).slotLen = s.slotLen := rfl
@[simp] theorem State.beginBody_slot (n : Nat) : (s.beginBody n).slot = s.slot := rfl
@[simp] theorem State.beginBody_linkReady (n : Nat) : (s.beginBody n).linkReady = s.linkReady := rfl
@[simp] theorem State.beginBody_tx (n : Nat) : (s.beginBody n).tx = s.tx := rfl
@[simp] theorem State.beginBody_results (n : Nat) : (s.beginBody n).results = s.results := rfl
@[simp] theorem State.beginBody_inbox (n : Nat) : (s.beginBody n).inbox = s.inbox := rfl
@[simp] theorem State.beginBody_env (n : Nat) : (s.beginBody n).env = s.env := rfl

/-! storeByte: 40 R84. -/

@[simp] theorem State.storeByte_rxPos (b : Byte) : (s.storeByte b).rxPos = s.rxPos := rfl
@[simp] theorem State.storeByte_rxCmd (b : Byte) : (s.storeByte b).rxCmd = s.rxCmd := rfl
@[simp] theorem State.storeByte_rxExplen (b : Byte) : (s.storeByte b).rxExplen = s.rxExplen := rfl
@[simp] theorem State.storeByte_rxCnt (b : Byte) : (s.storeByte b).rxCnt = len7 (s.rxCnt.toNat + 1) := rfl
@[simp] theorem State.storeByte_acc (b : Byte) : (s.storeByte b).acc = s.acc.write s.rxCnt.toNat b := rfl
@[simp] theorem State.storeByte_slotOccupied (b : Byte) : (s.storeByte b).slotOccupied = s.slotOccupied := rfl
@[simp] theorem State.storeByte_slotCmd (b : Byte) : (s.storeByte b).slotCmd = s.slotCmd := rfl
@[simp] theorem State.storeByte_slotLen (b : Byte) : (s.storeByte b).slotLen = s.slotLen := rfl
@[simp] theorem State.storeByte_slot (b : Byte) : (s.storeByte b).slot = s.slot := rfl
@[simp] theorem State.storeByte_linkReady (b : Byte) : (s.storeByte b).linkReady = s.linkReady := rfl
@[simp] theorem State.storeByte_tx (b : Byte) : (s.storeByte b).tx = s.tx := rfl
@[simp] theorem State.storeByte_results (b : Byte) : (s.storeByte b).results = s.results := rfl
@[simp] theorem State.storeByte_inbox (b : Byte) : (s.storeByte b).inbox = s.inbox := rfl
@[simp] theorem State.storeByte_env (b : Byte) : (s.storeByte b).env = s.env := rfl

/-! fillSlot: 42 R111. -/

@[simp] theorem State.fillSlot_rxPos (c : Byte) (p : List Byte) : (s.fillSlot c p).rxPos = s.rxPos := rfl
@[simp] theorem State.fillSlot_rxCmd (c : Byte) (p : List Byte) : (s.fillSlot c p).rxCmd = s.rxCmd := rfl
@[simp] theorem State.fillSlot_rxExplen (c : Byte) (p : List Byte) : (s.fillSlot c p).rxExplen = s.rxExplen := rfl
@[simp] theorem State.fillSlot_rxCnt (c : Byte) (p : List Byte) : (s.fillSlot c p).rxCnt = s.rxCnt := rfl
@[simp] theorem State.fillSlot_acc (c : Byte) (p : List Byte) : (s.fillSlot c p).acc = s.acc := rfl
@[simp] theorem State.fillSlot_slotOccupied (c : Byte) (p : List Byte) : (s.fillSlot c p).slotOccupied = true := rfl
@[simp] theorem State.fillSlot_slotCmd (c : Byte) (p : List Byte) : (s.fillSlot c p).slotCmd = c := rfl
@[simp] theorem State.fillSlot_slotLen (c : Byte) (p : List Byte) : (s.fillSlot c p).slotLen = len7 p.length := rfl
@[simp] theorem State.fillSlot_slot (c : Byte) (p : List Byte) : (s.fillSlot c p).slot = s.slot.writeFrom 0 p := rfl
@[simp] theorem State.fillSlot_linkReady (c : Byte) (p : List Byte) : (s.fillSlot c p).linkReady = s.linkReady := rfl
@[simp] theorem State.fillSlot_tx (c : Byte) (p : List Byte) : (s.fillSlot c p).tx = s.tx := rfl
@[simp] theorem State.fillSlot_results (c : Byte) (p : List Byte) : (s.fillSlot c p).results = s.results := rfl
@[simp] theorem State.fillSlot_inbox (c : Byte) (p : List Byte) : (s.fillSlot c p).inbox = s.inbox := rfl
@[simp] theorem State.fillSlot_env (c : Byte) (p : List Byte) : (s.fillSlot c p).env = s.env := rfl

/-! vacate: 42 R113. -/

@[simp] theorem State.vacate_rxPos : (s.vacate).rxPos = s.rxPos := rfl
@[simp] theorem State.vacate_rxCmd : (s.vacate).rxCmd = s.rxCmd := rfl
@[simp] theorem State.vacate_rxExplen : (s.vacate).rxExplen = s.rxExplen := rfl
@[simp] theorem State.vacate_rxCnt : (s.vacate).rxCnt = s.rxCnt := rfl
@[simp] theorem State.vacate_acc : (s.vacate).acc = s.acc := rfl
@[simp] theorem State.vacate_slotOccupied : (s.vacate).slotOccupied = false := rfl
@[simp] theorem State.vacate_slotCmd : (s.vacate).slotCmd = s.slotCmd := rfl
@[simp] theorem State.vacate_slotLen : (s.vacate).slotLen = s.slotLen := rfl
@[simp] theorem State.vacate_slot : (s.vacate).slot = s.slot := rfl
@[simp] theorem State.vacate_linkReady : (s.vacate).linkReady = s.linkReady := rfl
@[simp] theorem State.vacate_tx : (s.vacate).tx = s.tx := rfl
@[simp] theorem State.vacate_results : (s.vacate).results = s.results := rfl
@[simp] theorem State.vacate_inbox : (s.vacate).inbox = s.inbox := rfl
@[simp] theorem State.vacate_env : (s.vacate).env = s.env := rfl

/-! markReady: 44 R136. -/

@[simp] theorem State.markReady_rxPos : (s.markReady).rxPos = .awaitHeader := rfl
@[simp] theorem State.markReady_rxCmd : (s.markReady).rxCmd = s.rxCmd := rfl
@[simp] theorem State.markReady_rxExplen : (s.markReady).rxExplen = s.rxExplen := rfl
@[simp] theorem State.markReady_rxCnt : (s.markReady).rxCnt = s.rxCnt := rfl
@[simp] theorem State.markReady_acc : (s.markReady).acc = s.acc := rfl
@[simp] theorem State.markReady_slotOccupied : (s.markReady).slotOccupied = s.slotOccupied := rfl
@[simp] theorem State.markReady_slotCmd : (s.markReady).slotCmd = s.slotCmd := rfl
@[simp] theorem State.markReady_slotLen : (s.markReady).slotLen = s.slotLen := rfl
@[simp] theorem State.markReady_slot : (s.markReady).slot = s.slot := rfl
@[simp] theorem State.markReady_linkReady : (s.markReady).linkReady = true := rfl
@[simp] theorem State.markReady_tx : (s.markReady).tx = s.tx := rfl
@[simp] theorem State.markReady_results : (s.markReady).results = s.results := rfl
@[simp] theorem State.markReady_inbox : (s.markReady).inbox = s.inbox := rfl
@[simp] theorem State.markReady_env : (s.markReady).env = s.env := rfl

/-! moveEnv: 45. -/

@[simp] theorem State.moveEnv_rxPos (m : Move) : (s.moveEnv m).rxPos = s.rxPos := rfl
@[simp] theorem State.moveEnv_rxCmd (m : Move) : (s.moveEnv m).rxCmd = s.rxCmd := rfl
@[simp] theorem State.moveEnv_rxExplen (m : Move) : (s.moveEnv m).rxExplen = s.rxExplen := rfl
@[simp] theorem State.moveEnv_rxCnt (m : Move) : (s.moveEnv m).rxCnt = s.rxCnt := rfl
@[simp] theorem State.moveEnv_acc (m : Move) : (s.moveEnv m).acc = s.acc := rfl
@[simp] theorem State.moveEnv_slotOccupied (m : Move) : (s.moveEnv m).slotOccupied = s.slotOccupied := rfl
@[simp] theorem State.moveEnv_slotCmd (m : Move) : (s.moveEnv m).slotCmd = s.slotCmd := rfl
@[simp] theorem State.moveEnv_slotLen (m : Move) : (s.moveEnv m).slotLen = s.slotLen := rfl
@[simp] theorem State.moveEnv_slot (m : Move) : (s.moveEnv m).slot = s.slot := rfl
@[simp] theorem State.moveEnv_linkReady (m : Move) : (s.moveEnv m).linkReady = s.linkReady := rfl
@[simp] theorem State.moveEnv_tx (m : Move) : (s.moveEnv m).tx = s.tx := rfl
@[simp] theorem State.moveEnv_results (m : Move) : (s.moveEnv m).results = s.results := rfl
@[simp] theorem State.moveEnv_inbox (m : Move) : (s.moveEnv m).inbox = s.inbox := rfl
@[simp] theorem State.moveEnv_env (m : Move) : (s.moveEnv m).env = s.env.move m := rfl

end Sys2Proof.Machine
end

