-- ==== Sys2Proof/Laws/Ops.lean ====
section
/-! SUPPORT. What each shared operation can do, said once. -/

namespace Sys2Proof.Machine

theorem maxPayload_eq : Config.maxPayload = 64 := rfl

theorem respond_eq_raise (s : State) (o : Outputs) : s.raise o = s.respond o := rfl

@[simp] theorem oversized_iff (n : Nat) : oversized n = true ↔ 64 < n := by
  exact decide_eq_true_iff

@[simp] theorem isHeader_iff (b : Byte) : isHeader b = true ↔ b = Config.hdr := by simp [isHeader]

@[simp] theorem closesBody_iff (s : State) : closesBody s = true ↔ s.rxCnt.toNat + 1 = s.rxExplen.toNat := by
  simp [closesBody]

/-- A length register holds its legal values exactly. -/
theorem toNat_len7 {n : Nat} (h : n ≤ 64) : (len7 n).toNat = n := by
  simp only [len7, BitVec.toNat_ofNat]
  omega

/-- What one received byte can do (40 R81 to R85): the row of the transition table of 40 R86 that applies. -/
theorem feedByte_cases {b : Byte} {s t : State} (h : feedByte b s = .next t) :
    (s.linkReady = false ∧ t = s.respond .silent) ∨
    (s.linkReady = true ∧ s.rxPos = .awaitHeader ∧ b = Config.hdr ∧ t = (s.setPos .awaitCommand).respond .silent) ∨
    (s.linkReady = true ∧ s.rxPos = .awaitHeader ∧ b ≠ Config.hdr ∧ t = s.respond .silent) ∨
    (s.linkReady = true ∧ s.rxPos = .awaitCommand ∧ t = (s.latchCmd b).respond .silent) ∨
    (s.linkReady = true ∧ s.rxPos = .awaitLength ∧ 64 < b.toNat ∧ t = (s.setPos .awaitHeader).respond .silent) ∨
    (s.linkReady = true ∧ s.rxPos = .awaitLength ∧ b.toNat = 0 ∧
      t = (s.setPos .awaitHeader).respond { frame := some ⟨s.rxCmd, []⟩ }) ∨
    (s.linkReady = true ∧ s.rxPos = .awaitLength ∧ 1 ≤ b.toNat ∧ b.toNat ≤ 64 ∧
      t = (s.beginBody b.toNat).respond .silent) ∨
    (s.linkReady = true ∧ s.rxPos = .awaitBody ∧ s.rxCnt.toNat < 64 ∧ s.rxCnt.toNat + 1 = s.rxExplen.toNat ∧
      t = ((s.storeByte b).setPos .awaitHeader).respond { frame := some (s.closedFrame b) }) ∨
    (s.linkReady = true ∧ s.rxPos = .awaitBody ∧ s.rxCnt.toNat < 64 ∧ s.rxCnt.toNat + 1 ≠ s.rxExplen.toNat ∧
      t = (s.storeByte b).respond .silent) := by
  unfold feedByte at h
  split at h
  · simp_all
  · rename_i hr
    have hr : s.linkReady = true := by simpa using hr
    split at h <;> rename_i hp
    · by_cases hb : b = Config.hdr
      · simp_all [isHeader]
      · simp_all [isHeader]
    · simp_all
    · simp only [State.feedLength, Host.Outcome.next.injEq] at h
      split at h
      · simp_all
      · split at h
        · simp_all
        · simp_all
          omega
    · split at h
      · rename_i hc
        simp only [State.feedBody, Host.Outcome.next.injEq] at h
        by_cases hb : s.rxCnt.toNat + 1 = s.rxExplen.toNat
        · simp_all [closesBody, Config.maxPayload]
        · simp_all [closesBody, Config.maxPayload]
      · cases h

/-- One received byte refuses nothing, and faults only past the end of ACC. -/
theorem feedByte_stop {b : Byte} {s : State} :
    (∀ r, feedByte b s ≠ .refused r) ∧
    (∀ r, feedByte b s = .fault r → s.linkReady = true ∧ s.rxPos = .awaitBody ∧ 64 ≤ s.rxCnt.toNat) := by
  constructor
  · intro r h
    unfold feedByte at h
    split at h
    · cases h
    · split at h
      · cases h
      · cases h
      · cases h
      · split at h <;> cases h
  · intro r h
    unfold feedByte at h
    split at h
    · cases h
    · rename_i hr
      split at h <;> rename_i hp
      · cases h
      · cases h
      · cases h
      · split at h
        · cases h
        · rename_i hc
          exact ⟨by simpa using hr, hp, by simpa [Config.maxPayload] using hc⟩

theorem feedAll_nil (s : State) : feedAll [] s = .next s := rfl

theorem feedAll_cons_next {b : Byte} {bs : List Byte} {s t : State} (h : feedByte b s = .next t) :
    feedAll (b :: bs) s = feedAll bs t := by simp [feedAll, h]

/-- Bytes fed in two runs are bytes fed in one. -/
theorem feedAll_append {s t : State} (bs cs : List Byte) (h : feedAll bs s = .next t) :
    feedAll (bs ++ cs) s = feedAll cs t := by
  induction bs generalizing s with
  | nil => cases h; rfl
  | cons b bs ih =>
    simp only [feedAll] at h
    simp only [List.cons_append, feedAll]
    split at h
    · exact ih h
    · cases h
    · cases h

/-- What holds from a state to the next over each byte, and composes, holds over a run of bytes. -/
theorem feedAll_induct {P : State → State → Prop} (hrefl : ∀ s, P s s)
    (hstep : ∀ b s t u, feedByte b s = .next t → P t u → P s u) :
    ∀ (bs : List Byte) (s t : State), feedAll bs s = .next t → P s t := by
  intro bs
  induction bs with
  | nil => intro s t h; cases h; exact hrefl s
  | cons b bs ih =>
    intro s t h
    simp only [feedAll] at h
    split at h
    · exact hstep b s _ t ‹_› (ih _ t h)
    · cases h
    · cases h

/-- POST's test-and-set: dropped, or stored (42 R111, R112). -/
theorem postSlot_cases (c : Byte) (p : List Byte) (s : State) :
    ((64 < p.length ∨ s.slotOccupied = true) ∧ postSlot c p s = (false, s)) ∨
    (p.length ≤ 64 ∧ s.slotOccupied = false ∧ postSlot c p s = (true, s.fillSlot c p)) := by
  unfold postSlot
  by_cases h1 : 64 < p.length
  · simp [h1]
  · by_cases h2 : s.slotOccupied
    · simp [h1, h2]
    · simp [h1, h2]
      omega

/-- DRAIN's test-and-clear: nothing pending, the pending command, or a length no legal state holds (42 R113). -/
theorem drainSlot_cases (s : State) :
    (s.slotOccupied = false ∧ drainSlot s = some (none, s)) ∨
    (s.slotOccupied = true ∧ s.slotLen.toNat ≤ 64 ∧ drainSlot s = some (some s.pending, s.vacate)) ∨
    (s.slotOccupied = true ∧ 64 < s.slotLen.toNat ∧ drainSlot s = none) := by
  unfold drainSlot
  by_cases h1 : s.slotOccupied
  · by_cases h2 : s.slotLen.toNat ≤ 64
    · simp [h1, h2, Config.maxPayload]
    · simp [h1, h2, Config.maxPayload]
      omega
  · simp [h1]

/-- A filled slot holds the command it was filled with (42 R111, R113). -/
theorem pending_fillSlot (s : State) (c : Byte) {p : List Byte} (h : p.length ≤ 64) :
    (s.fillSlot c p).pending = ⟨c, p⟩ := by
  simp only [State.pending, State.fillSlot_slotCmd, State.fillSlot_slotLen, State.fillSlot_slot, toNat_len7 h,
    Memory.readBytes_writeFrom]

end Sys2Proof.Machine
end

