-- ==== Sys2Proof/Laws/PerInstr.lean ====
section
/-! SUPPORT. A law per instruction about its encoding: the number of bytes that the tables of 30_encoding R60, R68 and
R70 give it. -/

namespace Sys2Proof.Laws.EncodedLength

/-- The total length of each row (30 R70, "total length"; R64, R68). -/
def tableLength : Instr → Nat
  | .feed _ => 2
  | .ser _ p => 3 + p.length
  | .post _ p => 3 + p.length
  | .drain => 1
  | .tick => 1
  | .hostcmd s => 2 + s.length
  | .init => 1
  | .flush => 1
  | .wireFrame _ p => 3 + p.length
  | .wakeupSeq => 11

/-- The encoding of a well-formed instruction has the table's length, and no instruction is longer than
`maxInstrBytes`. -/
def Statement (i : Instr) : Prop := WellFormed i → (encode i).length = tableLength i ∧ tableLength i ≤ maxInstrBytes

theorem feed (b : Byte) : Statement (.feed b) := fun _ => ⟨rfl, by simp [tableLength, maxInstrBytes]⟩

theorem ser (c : Byte) (p : List Byte) : Statement (.ser c p) := by
  intro h
  have h : p.length ≤ 255 := of_decide_eq_true h
  simp [encode, tableLength, maxInstrBytes]
  omega

theorem post (c : Byte) (p : List Byte) : Statement (.post c p) := by
  intro h
  have h : p.length ≤ 255 := of_decide_eq_true h
  simp [encode, tableLength, maxInstrBytes]
  omega

theorem drain : Statement .drain := fun _ => ⟨rfl, by simp [tableLength, maxInstrBytes]⟩

theorem tick : Statement .tick := fun _ => ⟨rfl, by simp [tableLength, maxInstrBytes]⟩

theorem hostcmd (s : List Byte) : Statement (.hostcmd s) := by
  intro h
  have h : s.length ≤ 255 := of_decide_eq_true h
  simp [encode, tableLength, maxInstrBytes]
  omega

theorem init : Statement .init := fun _ => ⟨rfl, by simp [tableLength, maxInstrBytes]⟩

theorem flush : Statement .flush := fun _ => ⟨rfl, by simp [tableLength, maxInstrBytes]⟩

theorem wireFrame (c : Byte) (p : List Byte) : Statement (.wireFrame c p) := by
  intro h
  have h : p.length ≤ 64 := of_decide_eq_true h
  simp [encode, frameBytes, tableLength, maxInstrBytes]
  omega

theorem wakeupSeq : Statement .wakeupSeq := fun _ => ⟨rfl, by simp [tableLength, maxInstrBytes]⟩

end Sys2Proof.Laws.EncodedLength
end

