-- ==== Sys2Proof/Tests/Slice0.lean ====
section
/-! SUPPORT. The model's own tests: ill-formed instructions, request words and wire bytes written out from
30_encoding, one-step vectors of 95_test_vectors, and, for each statement with hypotheses, a state and operands that
meet them together. -/

open Sys2Proof Sys2Proof.Machine

namespace Sys2Proof.Tests

/-! States. -/

/-- The "ready state" of 95, with its 11 wakeup bytes still on TX. -/
def ready : State := { State.reset with linkReady := true, tx := Config.wakeupSeq }

/-- Ready, in the body of `7B 05 03 01 ..` (95 V1): one byte stored, two missing. -/
def inBody : State := { ready with rxPos := .awaitBody, rxCmd := 0x05, rxExplen := 3, rxCnt := 1, acc := [(0, 0x01)] }

/-- The same with one byte missing. -/
def lastByte : State := { inBody with rxCnt := 2, acc := [(0, 0x01), (1, 0x02)] }

/-- Ready, with (05, [01 02 03]) in the slot (95 E2). -/
def pendingCmd : State :=
  { ready with slotOccupied := true, slotCmd := 0x05, slotLen := 3, slot := [(0, 0x01), (1, 0x02), (2, 0x03)] }

/-- A payload of `n` bytes 11. -/
def bytesOf (n : Nat) : List Byte := List.replicate n 0x11

/-- An environment asleep on Peer0, at time 7. -/
def asleepEnv : Env := { Env.start with power := .asleep, rendering := false, link := .peer 0, now := 7 }

/-! Well-formedness: each check refuses a term past its bound (30 R62, R71), and accepts the term at it. -/

theorem test_wellFormed_ser : (Instr.ser 0x05 (bytesOf 256)).wellFormed = false ∧
    (Instr.ser 0x05 (bytesOf 255)).wellFormed = true := by
  simp only [Instr.wellFormed, bytesOf, List.length_replicate]
  decide

theorem test_wellFormed_post : (Instr.post 0x05 (bytesOf 256)).wellFormed = false ∧
    (Instr.post 0x05 (bytesOf 255)).wellFormed = true := by
  simp only [Instr.wellFormed, bytesOf, List.length_replicate]
  decide

theorem test_wellFormed_hostcmd : (Instr.hostcmd (bytesOf 256)).wellFormed = false ∧
    (Instr.hostcmd (bytesOf 255)).wellFormed = true := by
  simp only [Instr.wellFormed, bytesOf, List.length_replicate]
  decide

theorem test_wellFormed_wireFrame : (Instr.wireFrame 0x05 (bytesOf 65)).wellFormed = false ∧
    (Instr.wireFrame 0x05 (bytesOf 64)).wellFormed = true := by decide

/-! Decoding: words written out from 30 R70, R71. -/

/-- Byte 0 is 0000 0000, byte 1 the data byte 1011 0001. -/
theorem test_decode_feed : decodeRequest [0b00000000, 0b10110001] = .ok (.feed 0xB1) := rfl

/-- Byte 0 is 0000 0001, then the command id, the count 0000 0010, and two payload bytes. -/
theorem test_decode_ser :
    decodeRequest [0b00000001, 0b01000000, 0b00000010, 0b10000001, 0b00000000] = .ok (.ser 0x40 [0x81, 0x00]) := rfl

theorem test_decode_post :
    decodeRequest [0b00000010, 0b10000110, 0b00000001, 0b00001001] = .ok (.post 0x86 [0x09]) := rfl

theorem test_decode_drain : decodeRequest [0b00000011] = .ok .drain := rfl

theorem test_decode_tick : decodeRequest [0b00000100] = .ok .tick := rfl

theorem test_decode_hostcmd :
    decodeRequest [0b00000101, 0b00000011, 0b00000010, 0b10101010, 0b10111011] = .ok (.hostcmd [0x02, 0xAA, 0xBB]) :=
  rfl

theorem test_decode_init : decodeRequest [0b00000110] = .ok .init := rfl

theorem test_decode_flush : decodeRequest [0b00000111] = .ok .flush := rfl

/-- A frame (30 R60) at the front of RX, the byte after it left there. -/
theorem test_decode_wireFrame :
    decodeRx [0b01111011, 0b00000101, 0b00000010, 0b00000001, 0b01111011, 0x00]
      = some (.wireFrame 0x05 [0x01, 0x7B], [0x00]) := rfl

/-- The 11 bytes of 30 R68 on RX. -/
theorem test_decode_wakeupSeq :
    decodeRx [0x7B, 0x10, 0x43, 0x10, 0x03, 0x00, 0x00, 0x7D, 0x02, 0x01, 0x02, 0x7B] = some (.wakeupSeq, [0x7B]) := rfl

/-- A frame whose length byte is 65 is no frame: its marker is a single byte of RX (30 R62). -/
theorem test_decode_oversizedFrame : decodeRx [0x7B, 0x05, 0x41, 0x01] = some (.feed 0x7B, [0x05, 0x41, 0x01]) := rfl

/-- 95 V53, V56; and the marker is no operation code. -/
theorem test_decode_unknownOp :
    decodeRequest [0x08] = .error .unknownOp ∧ decodeRequest [0xFF] = .error .unknownOp ∧
    decodeRequest [0x7B, 0x05, 0x00] = .error .unknownOp := ⟨rfl, rfl, rfl⟩

/-- 95 V54, V55; and a byte too many. -/
theorem test_decode_malformed :
    decodeRequest [0x01, 0x05, 0x03, 0x01, 0x02] = .error .malformedRequest ∧
    decodeRequest [0x00] = .error .malformedRequest ∧
    decodeRequest [0x03, 0x00] = .error .malformedRequest := ⟨rfl, rfl, rfl⟩

/-- 95 P2, the whole program as bytes. -/
theorem test_decode_program :
    parseTrace [0x06, 0x02, 0x05, 0x03, 0x01, 0x02, 0x03, 0x02, 0x06, 0x01, 0x09, 0x04, 0x04, 0x02, 0x06, 0x01, 0x09,
        0x04]
      = .ok [.init, .post 0x05 [0x01, 0x02, 0x03], .post 0x06 [0x09], .tick, .tick, .post 0x06 [0x09], .tick] := rfl

/-- The request encoding of 95 P3 step 1. -/
theorem test_encode_hostcmd :
    encode (.hostcmd [0x01, 0x20, 0x7B, 0x00, 0xFF]) = [0x05, 0x05, 0x01, 0x20, 0x7B, 0x00, 0xFF] := rfl

/-- The table's bit numbering: the first byte in bits 7 to 0, the second in bits 15 to 8. -/
theorem test_tableWord :
    decodeTableWord 16 0x7B00 = some (.feed 0x7B) ∧ decodeTableWord 24 0x000501 = some (.ser 0x05 []) ∧
    decodeTableWord 24 0x00107B = some (.wireFrame 0x10 []) ∧
    decodeTableWord 88 0x0201027D0000031043107B = some .wakeupSeq ∧ decodeTableWord 8 0x08 = none := by decide

/-- From reset, with the table word placed, the very next step runs it: INIT answers 95 V50. -/
theorem test_fetchWord_init :
    step (State.reset.withFetchWord 8 0x06) = .next { ready with results := [Outputs.silent] } := rfl

/-- The wire row from reset: link not ready, so its bytes are discarded (95 V13). -/
theorem test_fetchWord_wireFrame :
    step (State.reset.withFetchWord 24 0x00057B) =
      .next { State.reset with results := [Outputs.silent, Outputs.silent, Outputs.silent] } := rfl

/-! One-step vectors of 95_test_vectors. -/

/-- V2: length zero closes on the length byte. -/
theorem test_feed_zeroLength :
    exec (.feed 0x00) { ready with rxPos := .awaitLength, rxCmd := 0x10 } =
      .next { ready with rxCmd := 0x10, results := [{ frame := some ⟨0x10, []⟩ }] } := rfl

/-- V1, the last byte: `ACC[2] = 03`, `rx.cnt = 3`, the frame (05, [01 02 03]). -/
theorem test_feed_closes :
    exec (.feed 0x03) lastByte = .next { lastByte with
      rxPos := .awaitHeader, rxCnt := 3, acc := [(0, 0x01), (1, 0x02), (2, 0x03)]
      results := [{ frame := some ⟨0x05, [0x01, 0x02, 0x03]⟩ }] } := rfl

/-- V24: the marker value passes in every place. -/
theorem test_ser_noEscaping :
    exec (.ser 0x7B [0x7B, 0x7D]) ready = .next { ready with
      tx := Config.wakeupSeq ++ [0x7B, 0x7B, 0x02, 0x7B, 0x7D], results := [{ serResult := some .ok }] } := rfl

/-- V23: 65 bytes, nothing sent; the result code is 01 (60 R176). -/
theorem test_ser_oversized :
    exec (.ser 0x09 (bytesOf 65)) ready = .next { ready with
      results := [{ serResult := some (.oversizedPayload 65) }] } ∧
    (SerResult.oversizedPayload 65).code = 0x01 := ⟨rfl, rfl⟩

/-- E2, the first post. -/
theorem test_post_stores :
    exec (.post 0x05 [0x01, 0x02, 0x03]) ready = .next { pendingCmd with results := [{ postOk := some true }] } := rfl

/-- V33: 65 bytes. -/
theorem test_post_oversized :
    exec (.post 0x07 (bytesOf 65)) ready = .next { ready with results := [{ postOk := some false }] } := rfl

/-- E2, the drain. -/
theorem test_drain_takes :
    exec .drain pendingCmd = .next { pendingCmd with
      slotOccupied := false
      results := [{ drained := some ⟨0x05, [0x01, 0x02, 0x03]⟩, activity := true }] } := rfl

/-- V32. -/
theorem test_drain_empty : exec .drain ready = .next { ready with results := [Outputs.silent] } := rfl

/-- P2 step 4. -/
theorem test_tick_sends :
    exec .tick pendingCmd = .next { pendingCmd with
      slotOccupied := false
      tx := Config.wakeupSeq ++ [0x7B, 0x05, 0x03, 0x01, 0x02, 0x03]
      results := [{ drained := some ⟨0x05, [0x01, 0x02, 0x03]⟩, activity := true }] } := rfl

/-- V38: refused before INIT, the command still pending. -/
theorem test_tick_notReady : exec .tick { pendingCmd with linkReady := false } = .refused .notReady := rfl

/-- V43. -/
theorem test_hostcmd_empty :
    exec (.hostcmd []) State.reset = .next { State.reset with results := [{ postOk := some false }] } := rfl

/-- V42, with FW at whatever value the parameter has. -/
theorem test_hostcmd_forwards :
    exec (forward 0x05 []) State.reset = .next { State.reset with
      slotOccupied := true, slotCmd := 0x05, results := [{ postOk := some true }] } := by
  simp [forward, exec, execHostcmd, readHostCommand]
  rfl

/-- V51. -/
theorem test_init_twice : exec .init ready = .refused .initTwice := rfl

/-- V52. -/
theorem test_flush :
    exec .flush { ready with rxPos := .awaitLength } = .next { ready with results := [Outputs.silent] } := rfl

/-- V7: the marker value as command id. -/
theorem test_wireFrame_markerId :
    exec (.wireFrame 0x7B [0xAA]) ready = .next { ready with
      rxCmd := 0x7B, rxExplen := 1, rxCnt := 1, acc := [(0, 0xAA)]
      results := [Outputs.silent, Outputs.silent, Outputs.silent, { frame := some ⟨0x7B, [0xAA]⟩ }] } := rfl

/-- V14: the wakeup sequence is no frame. -/
theorem test_wakeupSeq_noFrame :
    ∃ t, exec .wakeupSeq ready = .next t ∧ framesOf t.results = [] ∧ t.rxPos = .awaitHeader := ⟨_, rfl, rfl, rfl⟩

/-- The position codes of 10 R11. -/
theorem test_position_codes :
    [Position.awaitHeader, .awaitCommand, .awaitLength, .awaitBody].map Position.code = [0, 1, 2, 3] := rfl

/-- 45 R163: Unpair clears the active peer's pairing and no other. -/
theorem test_env_unpair :
    ({ Env.start with link := .peer 1, paired := Vector.replicate 4 true } : Env).onUnpair.paired =
      #v[true, false, true, true] := by decide

/-! Witnesses: for each statement with hypotheses, a state and operands that meet them together. -/

theorem test_witness_EncodeThenDecode :
    (WellFormed (.ser 0x05 (bytesOf 255)) ∧ (Instr.ser 0x05 (bytesOf 255)).isRequest = true) ∧
    (WellFormed (.hostcmd (bytesOf 255)) ∧ (Instr.hostcmd (bytesOf 255)).isRequest = true) ∧
    (WellFormed (.wireFrame 0x05 (bytesOf 64)) ∧ (Instr.wireFrame 0x05 (bytesOf 64)).isRequest = false) ∧
    (WellFormed .wakeupSeq ∧ Instr.wakeupSeq.isRequest = false) := by
  simp only [WellFormed, Instr.wellFormed, bytesOf, List.length_replicate]
  decide

theorem test_witness_DecodeThenEncode : decodeRequest [0x02, 0x06, 0x01, 0x09] = .ok (.post 0x06 [0x09]) := rfl

/-- The codes at both ends of the known range, one with a missing byte and one with a byte too many. -/
theorem test_witness_RequestsRefusedExactly :
    ((0x00 : Byte).toNat < 8 ∧ requestLength [0x00] ≠ some 1) ∧
    ((0x07 : Byte).toNat < 8 ∧ requestLength [0x07, 0x00] ≠ some 2) ∧ 8 ≤ (0x08 : Byte).toNat := by decide

theorem test_witness_FeedBeforeInitDiscards : State.reset.linkReady = false := rfl

theorem test_witness_FeedHuntsForHeader : ready.linkReady = true ∧ ready.rxPos = .awaitHeader := ⟨rfl, rfl⟩

theorem test_witness_FeedTakesCommandId :
    { ready with rxPos := .awaitCommand : State }.linkReady = true ∧
    { ready with rxPos := .awaitCommand : State }.rxPos = .awaitCommand := ⟨rfl, rfl⟩

/-- Each clause at its boundary: 65 and 255; 0; 1 and 64. -/
theorem test_witness_FeedReadsLength :
    ({ ready with rxPos := .awaitLength : State }.linkReady = true ∧
      { ready with rxPos := .awaitLength : State }.rxPos = .awaitLength) ∧
    (64 < (0x41 : Byte).toNat ∧ 64 < (0xFF : Byte).toNat) ∧ (0x00 : Byte).toNat = 0 ∧
    (1 ≤ (0x01 : Byte).toNat ∧ (0x01 : Byte).toNat ≤ 64) ∧
    (1 ≤ (0x40 : Byte).toNat ∧ (0x40 : Byte).toNat ≤ 64) := by decide

/-- A middle byte, the last byte, and the last byte of the largest body, at index 63. -/
theorem test_witness_FeedStoresBodyByte :
    (inBody.linkReady = true ∧ inBody.rxPos = .awaitBody ∧ 1 ≤ inBody.rxExplen.toNat ∧ inBody.rxExplen.toNat ≤ 64 ∧
      inBody.rxCnt.toNat < inBody.rxExplen.toNat ∧ inBody.rxCnt.toNat + 1 ≠ inBody.rxExplen.toNat) ∧
    (lastByte.linkReady = true ∧ lastByte.rxPos = .awaitBody ∧ 1 ≤ lastByte.rxExplen.toNat ∧
      lastByte.rxExplen.toNat ≤ 64 ∧ lastByte.rxCnt.toNat + 1 = lastByte.rxExplen.toNat) ∧
    ((64 : Len7).toNat ≤ 64 ∧ (63 : Len7).toNat < (64 : Len7).toNat ∧ (63 : Len7).toNat + 1 = (64 : Len7).toNat) := by
  decide

theorem test_witness_FeedLeavesTheRest : ∃ t, exec (.feed 0x02) inBody = .next t := ⟨_, rfl⟩

theorem test_witness_WireFrameRoundTrip :
    ready.linkReady = true ∧ ready.rxPos = .awaitHeader ∧ (bytesOf 64).length ≤ 64 ∧ (bytesOf 0).length ≤ 64 := by
  decide

/-- Two frames, the first after a gap of 95 V5, and a gap at the end. -/
theorem test_witness_StreamOfFramesParses :
    ready.linkReady = true ∧ ready.rxPos = .awaitHeader ∧
    (∀ e ∈ [([0x00, 0xFF, 0x7D], (⟨0x05, [0x7B]⟩ : Frame)), ([], ⟨0x06, []⟩)],
      NoMarker e.1 ∧ e.2.payload.length ≤ 64) ∧ NoMarker [0x09] := by
  refine ⟨rfl, rfl, ?_, ?_⟩ <;> simp [NoMarker, Config.hdr]

theorem test_witness_ParserIdleWithin66Bytes :
    inBody.linkReady = true ∧ inBody.BodyOpen ∧ (bytesOf 66).length = 66 := ⟨rfl, fun _ => by decide, rfl⟩

theorem test_witness_OversizedFrameRejected :
    ready.linkReady = true ∧ ready.rxPos = .awaitHeader ∧ 64 < (0x41 : Byte).toNat ∧ NoMarker [0x01, 0x02, 0x03] := by
  refine ⟨rfl, rfl, by decide, ?_⟩
  simp [NoMarker, Config.hdr]

theorem test_witness_RxBeforeInitDiscarded : State.reset.linkReady = false := rfl

theorem test_witness_WakeupBytesAreNoFrame :
    (ready.linkReady = true ∧ ready.rxPos = .awaitHeader) ∧ State.reset.linkReady = false := ⟨⟨rfl, rfl⟩, rfl⟩

theorem test_witness_WireRowsAreFeeds :
    (Instr.wireFrame 0x05 (bytesOf 65)).isRequest = false ∧ Instr.wakeupSeq.isRequest = false := ⟨rfl, rfl⟩

theorem test_witness_ReceptionCompletes :
    lastByte.BodyOpen ∧ (Instr.wireFrame 0x05 [0x01]).isRequest = false ∧
    (∃ b, Instr.feed 0x03 = .feed b) := ⟨fun _ => by decide, rfl, _, rfl⟩

theorem test_witness_SerTransmitsFrame :
    State.reset.linkReady = false ∧ ready.linkReady = true ∧ 64 < (bytesOf 65).length ∧ (bytesOf 64).length ≤ 64 := by
  decide

theorem test_witness_SerMirrorsParser :
    ((∃ t, exec (.ser 0x05 [0x7B]) pendingCmd = .next t) ∧ ready.linkReady = true ∧ ready.rxPos = .awaitHeader) ∧
    (lastByte.BodyOpen ∧ ∃ t, exec (.feed 0x03) lastByte = .next t ∧
      t.results = lastByte.results ++ [{ frame := some ⟨0x05, [0x01, 0x02, 0x03]⟩ }]) :=
  ⟨⟨⟨_, rfl⟩, rfl, rfl⟩, fun _ => by decide, _, rfl, rfl⟩

theorem test_witness_PostStoresOrDrops :
    64 < (bytesOf 65).length ∧ pendingCmd.slotOccupied = true ∧
    ((bytesOf 64).length ≤ 64 ∧ (bytesOf 0).length ≤ 64 ∧ ready.slotOccupied = false) := by decide

theorem test_witness_DrainTakesOrNone :
    (pendingCmd.slotOccupied = true ∧ pendingCmd.slotLen.toNat ≤ 64) ∧ (64 : Len7).toNat ≤ 64 ∧
    ready.slotOccupied = false := by decide

theorem test_witness_TickDrainsAndSends :
    State.reset.linkReady = false ∧
    (pendingCmd.linkReady = true ∧ pendingCmd.slotOccupied = true ∧ pendingCmd.slotLen.toNat ≤ 64) ∧
    (ready.linkReady = true ∧ ready.slotOccupied = false) := by decide

theorem test_witness_TickIsDrainThenSer : pendingCmd.linkReady = true ∧ pendingCmd.SlotFits :=
  ⟨rfl, fun _ => by decide⟩

theorem test_witness_ProducerLeavesTheRest :
    (∃ t, exec (.post 0x06 [0x09]) ready = .next t) ∧ (∃ t, exec (.hostcmd []) inBody = .next t) :=
  ⟨⟨_, rfl⟩, _, rfl⟩

theorem test_witness_NonStoringLeaveTheRest :
    (∃ t, exec .drain pendingCmd = .next t) ∧ (∃ t, exec .tick pendingCmd = .next t) ∧
    (∃ t, exec .init State.reset = .next t) ∧ (∃ t, exec .flush inBody = .next t) ∧
    (∃ t, exec (.ser 0x05 []) inBody = .next t) := ⟨⟨_, rfl⟩, ⟨_, rfl⟩, ⟨_, rfl⟩, ⟨_, rfl⟩, _, rfl⟩

theorem test_witness_NextDrainReturnsThePost :
    ready.slotOccupied = false ∧ ([0x01, 0x02] : List Byte).length ≤ 64 ∧
    (∀ i ∈ [Instr.post 0x06 [0x09], .feed 0x7B], drains i = false) ∧
    ∃ t, execAll [.post 0x05 [0x01, 0x02], .post 0x06 [0x09], .feed 0x7B] ready = .next t :=
  ⟨rfl, by decide, by decide, _, rfl⟩

theorem test_witness_AtMostOnePending :
    ready.slotOccupied = false ∧ ∃ t, execAll [.post 0x05 [], .drain, .post 0x06 []] ready = .next t := ⟨rfl, _, rfl⟩

theorem test_witness_PostAndDrainEitherOrder :
    (bytesOf 64).length ≤ 64 ∧ (pendingCmd.SlotFits ∧ pendingCmd.slotOccupied = true) ∧
    (ready.SlotFits ∧ ready.slotOccupied = false) := ⟨by decide, ⟨fun _ => by decide, rfl⟩, nofun, rfl⟩

theorem test_witness_ActivityOnlyFromDrains : ∃ t, exec .tick pendingCmd = .next t := ⟨_, rfl⟩

/-- A first byte other than the selector, whatever the selector is. -/
theorem test_witness_HostCommandBranches : Config.fwdSubcmd + 1 ≠ Config.fwdSubcmd := by bv_omega

theorem test_witness_HostForwardStoresOrLost :
    ((bytesOf 64).length ≤ 64 ∧ ready.slotOccupied = false) ∧ pendingCmd.slotOccupied = true ∧
    66 < (Config.fwdSubcmd :: (0x05 : Byte) :: bytesOf 65).length := ⟨by decide, rfl, by simp [bytesOf]⟩

theorem test_witness_InitWakesLinkOnce : State.reset.linkReady = false ∧ ready.linkReady = true := ⟨rfl, rfl⟩

/-- Each clause: the flag set by POST, cleared by DRAIN, the link made ready by INIT. -/
theorem test_witness_FlagsChangeOnlyByTheirOwners :
    (∃ t, exec (.post 0x05 []) ready = .next t ∧ ready.slotOccupied = false ∧ t.slotOccupied = true) ∧
    (∃ t, exec .drain pendingCmd = .next t ∧ pendingCmd.slotOccupied = true ∧ t.slotOccupied = false) ∧
    (∃ t, exec .init State.reset = .next t ∧ t.linkReady ≠ State.reset.linkReady) :=
  ⟨⟨_, rfl, rfl, rfl⟩, ⟨_, rfl, rfl, rfl⟩, _, rfl, nofun⟩

theorem test_witness_RelayIndependentOfLink :
    (Instr.drain = .drain ∨ Instr.drain = .flush ∨ (∃ c p, Instr.drain = .post c p) ∨ ∃ b, Instr.drain = .hostcmd b) ∧
    ∃ b, Instr.hostcmd [0x02] = .hostcmd b := ⟨.inl rfl, _, rfl⟩

theorem test_witness_OperationsRefusedExactly :
    exec (.ser 0x07 []) State.reset = .refused .notReady ∧ exec .tick State.reset = .refused .notReady ∧
    exec .init ready = .refused .initTwice := ⟨rfl, rfl, rfl⟩

theorem test_witness_TxOnlyGrows :
    ∃ t, exec (.ser 0x10 []) ready = .next t ∧ t.tx ≠ ready.tx := ⟨_, rfl, by decide⟩

/-- The invariants hold together of a state in a body, and of one with a command pending and a frame sent. -/
theorem test_witness_Inv :
    inBody.Inv ∧ { pendingCmd with tx := Config.wakeupSeq ++ [0x7B, 0x10, 0x00] : State }.Inv :=
  ⟨⟨fun _ => by decide, nofun, by decide, by decide, nofun, fun _ => ⟨[], nofun, by decide⟩⟩,
    ⟨nofun, fun _ => by decide, by decide, by decide, nofun,
      fun _ => ⟨[⟨0x10, []⟩], by simp, by decide⟩⟩⟩

/-- A step that a request makes from a state with the invariants. -/
theorem test_witness_StepKeepsInvariants :
    { inBody with inbox := [.request .byteReceived [0x00, 0x02]] : State }.Inv ∧
    ∃ t, step { inBody with inbox := [.request .byteReceived [0x00, 0x02]] } = .next t :=
  ⟨⟨fun _ => by decide, nofun, by decide, by decide, nofun, fun _ => ⟨[], nofun, by decide⟩⟩, _, rfl⟩

theorem test_witness_StepNeverFaults : pendingCmd.Inv :=
  ⟨nofun, fun _ => by decide, by decide, by decide, nofun, fun _ => ⟨[], nofun, by decide⟩⟩

/-- Two states that differ in every dead field. -/
theorem test_witness_DeadDataUnobservable :
    ready.Inv ∧
    { ready with rxCmd := 9, rxExplen := 7, rxCnt := 7, acc := [(0, 9)], slotCmd := 9, slotLen := 9, slot := [(3, 9)]
      : State }.Inv ∧
    ready.SameLive
      { ready with rxCmd := 9, rxExplen := 7, rxCnt := 7, acc := [(0, 9)], slotCmd := 9, slotLen := 9, slot := [(3, 9)] } :=
  ⟨⟨nofun, nofun, by decide, by decide, nofun, fun _ => ⟨[], nofun, by decide⟩⟩,
    ⟨nofun, nofun, by decide, by decide, nofun, fun _ => ⟨[], nofun, by decide⟩⟩,
    ⟨rfl, rfl, rfl, nofun, nofun, nofun, rfl, rfl, rfl, rfl⟩⟩

theorem test_witness_ResetForgetsTheBlock :
    { pendingCmd with inbox := [.reset] : State }.inbox = .reset :: [] := rfl

/-- Each clause: a request, bytes on RX, each refused code, an empty inbox. -/
theorem test_witness_StepRunsDecodedInstruction :
    ({ ready with inbox := [.request .tick [0x04]] : State }.inbox = .request .tick [0x04] :: [] ∧
      decodeRequest [0x04] = .ok .tick) ∧
    ({ ready with inbox := [.rx [0x7A, 0x05]] : State }.inbox = .rx [0x7A, 0x05] :: [] ∧
      decodeRx [0x7A, 0x05] = some (.feed 0x7A, [0x05])) ∧
    (decodeRequest [0x08] = .error .unknownOp ∧ decodeRequest [0x00] = .error .malformedRequest) ∧
    ready.inbox = [] := ⟨⟨rfl, rfl⟩, ⟨rfl, rfl⟩, ⟨rfl, rfl⟩, rfl⟩

theorem test_witness_KeyPressWakes :
    ({ ready with inbox := [.move .keyPressed] : State }.inbox = .move .keyPressed :: [] ∧
      ready.env.power = .awake) ∧
    ({ ready with inbox := [.move .keyPressed], env := asleepEnv : State }.inbox = .move .keyPressed :: [] ∧
      asleepEnv.power = .asleep) := ⟨⟨rfl, rfl⟩, rfl, rfl⟩

/-- The threshold reached, whatever it is; and a state asleep. -/
theorem test_witness_IdleSleepsOnce :
    ({ ready with inbox := [.move .idleCheck, .move .idleCheck] : State }.inbox
      = .move .idleCheck :: .move .idleCheck :: []) ∧
    (({ Env.start with now := Config.idleThreshold } : Env).power = .awake ∧
      ({ Env.start with now := Config.idleThreshold } : Env).rendering = true ∧
      Config.idleThreshold ≤ ({ Env.start with now := Config.idleThreshold } : Env).now -
        ({ Env.start with now := Config.idleThreshold } : Env).idleStamp) ∧
    asleepEnv.power = .asleep := ⟨rfl, ⟨rfl, rfl, by simp [Env.start]⟩, rfl⟩

theorem test_witness_ForwardedCommandCountsAsActivity :
    { pendingCmd with inbox := [.request .tick [0x03], .move (.elapse 5), .move .idleCheck] : State }.inbox =
      .request .tick [0x03] :: .move (.elapse 5) :: .move .idleCheck :: [] ∧
    pendingCmd.slotOccupied = true ∧ pendingCmd.slotLen.toNat ≤ 64 ∧ pendingCmd.env.power = .awake ∧
    pendingCmd.env.rendering = true := ⟨rfl, rfl, by decide, rfl, rfl⟩

/-- Each clause: a selection, Disconnect, Unpair under USB and under a peer. -/
theorem test_witness_LinkMoves :
    { ready with inbox := [.move (.selectLink (.peer 3))] : State }.inbox = .move (.selectLink (.peer 3)) :: [] ∧
    { ready with inbox := [.move .disconnect] : State }.inbox = .move .disconnect :: [] ∧
    ({ ready with inbox := [.move .unpair] : State }.inbox = .move .unpair :: [] ∧ Env.start.onDisconnect.link = .usb) ∧
    asleepEnv.link = .peer 0 := ⟨rfl, rfl, ⟨rfl, rfl⟩, rfl⟩

/-- A poll at its bound, of a whole status frame, whose boolean is not the one the mirror holds. -/
theorem test_witness_MirrorHoldsUntilOverwritten :
    ∃ t, step { ready with
        inbox := [.move (.statusPoll 10 (bytesOf 11))]
        env := { Env.start with mirror := ⟨!Config.capslockTrue 0x11, 0⟩ } } = .next t ∧
      t.env.mirror ≠ ⟨!Config.capslockTrue 0x11, 0⟩ := by
  refine ⟨_, rfl, ?_⟩
  intro h
  have hc : Config.capslockTrue 0x11 = !Config.capslockTrue 0x11 := congrArg Mirror.capslock h
  exact absurd hc (by cases Config.capslockTrue 0x11 <;> decide)

theorem test_witness_StoredCommandsAreDrained :
    ready.slotOccupied = false ∧
    ∃ t, execAll [.post 0x05 [0x01], .post 0x06 [], .drain, .hostcmd [], .post 0x07 []] ready = .next t ∧
      storedCommands [.post 0x05 [0x01], .post 0x06 [], .drain, .hostcmd [], .post 0x07 []] t.results =
        [⟨0x05, [0x01]⟩, ⟨0x07, []⟩] := ⟨rfl, _, rfl, by decide⟩

/-- Each clause: a poll at its bound, one past it, one a byte short; a step that returns a frame. -/
theorem test_witness_MirrorIsOverwritten :
    ({ ready with inbox := [.move (.statusPoll 10 (bytesOf 11))] : State }.inbox =
        .move (.statusPoll 10 (bytesOf 11)) :: [] ∧ (bytesOf 11).length = 11 ∧ (bytesOf 11)[10]? = some 0x11) ∧
    (10 < 11 ∧ (bytesOf 10).length ≠ 11) ∧
    ((∀ w bs rest, { ready with inbox := [.rx [0x7B, 0x10, 0x00]] : State }.inbox ≠ .move (.statusPoll w bs) :: rest) ∧
      ∃ t, step { ready with inbox := [.rx [0x7B, 0x10, 0x00]] } = .next t ∧
        t.results = ready.results ++ [Outputs.silent, Outputs.silent, { frame := some ⟨0x10, []⟩ }]) :=
  ⟨⟨rfl, rfl, rfl⟩, ⟨by decide, by decide⟩, nofun, _, rfl, rfl⟩

/-- The closing length byte of an empty frame (95 V2). -/
theorem test_witness_FrameIsDispatched :
    { ready with rxPos := .awaitLength, inbox := [.request .byteReceived [0x00, 0x00]] : State }.inbox =
      .request .byteReceived [0x00, 0x00] :: [] ∧
    ∃ t, step { ready with rxPos := .awaitLength, inbox := [.request .byteReceived [0x00, 0x00]] } = .next t ∧
      t.results = ready.results ++ [{ frame := some ⟨0x00, []⟩ }] := ⟨rfl, _, rfl, rfl⟩

end Sys2Proof.Tests
end

/-! SUPPORT. What an operation and a step can do, said once: every rule over all operations and every invariant is read
off these cases. -/

namespace Sys2Proof.Machine

/-! Operations. -/

/-- The ways in which an operation completes, one constructor per branch of its rule (40 R80, 41 R101, 42 R111 to R114,
43 R126, 44 R136, R138; log entry 7 for the wire rows), each with its guard and its next state. -/
inductive Completes : Instr → State → State → Prop
  | feed {b : Byte} {s t : State} (h : feedByte b s = .next t) : Completes (.feed b) s t
  | wireFrame {c : Byte} {p : List Byte} {s t : State} (h : feedAll (frameBytes ⟨c, p⟩) s = .next t) :
      Completes (.wireFrame c p) s t
  | wakeupSeq {s t : State} (h : feedAll Config.wakeupSeq s = .next t) : Completes .wakeupSeq s t
  | serSent {c : Byte} {p : List Byte} {s : State} (hr : s.linkReady = true) (hp : p.length ≤ 64) :
      Completes (.ser c p) s ((s.send ⟨c, p⟩).respond { serResult := some .ok })
  | serOversized {c : Byte} {p : List Byte} {s : State} (hr : s.linkReady = true) (hp : 64 < p.length) :
      Completes (.ser c p) s (s.raise { serResult := some (.oversizedPayload p.length) })
  | postStored {c : Byte} {p : List Byte} {s : State} (hp : p.length ≤ 64) (ho : s.slotOccupied = false) :
      Completes (.post c p) s ((s.fillSlot c p).respond { postOk := some true })
  | postDropped {c : Byte} {p : List Byte} {s : State} (hd : 64 < p.length ∨ s.slotOccupied = true) :
      Completes (.post c p) s (s.respond { postOk := some false })
  | drainTaken {s : State} (ho : s.slotOccupied = true) (hl : s.slotLen.toNat ≤ 64) :
      Completes .drain s (s.vacate.respond (drainOutputs (some s.pending)))
  | drainEmpty {s : State} (ho : s.slotOccupied = false) : Completes .drain s (s.respond (drainOutputs none))
  | tickTaken {s : State} (hr : s.linkReady = true) (ho : s.slotOccupied = true) (hl : s.slotLen.toNat ≤ 64) :
      Completes .tick s ((s.vacate.send s.pending).respond (drainOutputs (some s.pending)))
  | tickEmpty {s : State} (hr : s.linkReady = true) (ho : s.slotOccupied = false) :
      Completes .tick s (s.respond (drainOutputs none))
  | hostcmdShort {b : List Byte} {s : State} (hb : readHostCommand b = .short) :
      Completes (.hostcmd b) s (s.respond { postOk := some false })
  | hostcmdDelegated {b d : List Byte} {s : State} (hb : readHostCommand b = .delegate d) :
      Completes (.hostcmd b) s (s.respond { postOk := some false, delegated := some d })
  | hostcmdStored {b p : List Byte} {c : Byte} {s : State} (hb : readHostCommand b = .forward c p)
      (hp : p.length ≤ 64) (ho : s.slotOccupied = false) :
      Completes (.hostcmd b) s ((s.fillSlot c p).respond { postOk := some true })
  | hostcmdDropped {b p : List Byte} {c : Byte} {s : State} (hb : readHostCommand b = .forward c p)
      (hd : 64 < p.length ∨ s.slotOccupied = true) :
      Completes (.hostcmd b) s (s.respond { postOk := some false })
  | init {s : State} (hr : s.linkReady = false) :
      Completes .init s ((s.emit Config.wakeupSeq).markReady.respond .silent)
  | flush {s : State} : Completes .flush s ((s.setPos .awaitHeader).respond .silent)

theorem execSer_completes {c : Byte} {p : List Byte} {s t : State} (h : execSer c p s = .next t) :
    Completes (.ser c p) s t := by
  unfold execSer at h
  split at h
  · cases h
  · next hr =>
    have hr : s.linkReady = true := by simpa using hr
    split at h <;> cases h
    · next hp => exact .serOversized hr ((oversized_iff _).1 hp)
    · next hp => exact .serSent hr (by simpa using hp)

theorem execPost_completes {c : Byte} {p : List Byte} {s t : State} (h : execPost c p s = .next t) :
    Completes (.post c p) s t := by
  unfold execPost at h
  obtain ⟨hd, e⟩ | ⟨hp, ho, e⟩ := postSlot_cases c p s <;> rw [e] at h <;> cases h
  · exact .postDropped hd
  · exact .postStored hp ho

theorem execDrain_completes {s t : State} (h : execDrain s = .next t) : Completes .drain s t := by
  unfold execDrain at h
  obtain ⟨ho, e⟩ | ⟨ho, hl, e⟩ | ⟨-, -, e⟩ := drainSlot_cases s <;> rw [e] at h <;> cases h
  · exact .drainEmpty ho
  · exact .drainTaken ho hl

theorem execTick_completes {s t : State} (h : execTick s = .next t) : Completes .tick s t := by
  unfold execTick at h
  split at h
  · cases h
  · next hr =>
    have hr : s.linkReady = true := by simpa using hr
    obtain ⟨ho, e⟩ | ⟨ho, hl, e⟩ | ⟨-, -, e⟩ := drainSlot_cases s <;> rw [e] at h <;> cases h
    · exact .tickEmpty hr ho
    · exact .tickTaken hr ho hl

theorem execHostcmd_completes {b : List Byte} {s t : State} (h : execHostcmd b s = .next t) :
    Completes (.hostcmd b) s t := by
  unfold execHostcmd at h
  split at h
  · next hb => cases h; exact .hostcmdShort hb
  · next hb => cases h; exact .hostcmdDelegated hb
  · next c p hb =>
    obtain ⟨hd, e⟩ | ⟨hp, ho, e⟩ := postSlot_cases c p s <;> rw [e] at h <;> cases h
    · exact .hostcmdDropped hb hd
    · exact .hostcmdStored hb hp ho

theorem execInit_completes {s t : State} (h : execInit s = .next t) : Completes .init s t := by
  unfold execInit at h
  split at h
  · cases h
  · next hr => cases h; exact .init (by simpa using hr)

/-- An operation that answers a next state completes in one of the listed ways. -/
theorem exec_completes {i : Instr} {s t : State} (h : exec i s = .next t) : Completes i s t := by
  cases i with
  | feed b => exact .feed h
  | ser c p => exact execSer_completes h
  | post c p => exact execPost_completes h
  | drain => exact execDrain_completes h
  | tick => exact execTick_completes h
  | hostcmd b => exact execHostcmd_completes h
  | init => exact execInit_completes h
  | flush => cases h; exact .flush
  | wireFrame c p => exact .wireFrame h
  | wakeupSeq => exact .wakeupSeq h

/-! Reception: the frame of FEED (40 R80, R86), over one byte and over a run of bytes. -/

/-- `t` is `s` but for the parser's registers, its buffer and the results. -/
def State.ParserMoved (s t : State) : Prop :=
  t = { s with
    rxPos := t.rxPos, rxCmd := t.rxCmd, rxExplen := t.rxExplen, rxCnt := t.rxCnt, acc := t.acc, results := t.results }

section
variable {s t u : State}

theorem State.ParserMoved.slotOccupied_eq (h : s.ParserMoved t) : t.slotOccupied = s.slotOccupied := by rw [h]

theorem State.ParserMoved.linkReady_eq (h : s.ParserMoved t) : t.linkReady = s.linkReady := by rw [h]

theorem State.ParserMoved.tx_eq (h : s.ParserMoved t) : t.tx = s.tx := by rw [h]

theorem State.ParserMoved.trans (h : s.ParserMoved t) (k : t.ParserMoved u) : s.ParserMoved u := by
  unfold State.ParserMoved at h k ⊢
  rw [k, h]

end

theorem feedByte_parserMoved {b : Byte} {s t : State} (h : feedByte b s = .next t) : s.ParserMoved t := by
  obtain ⟨-, rfl⟩ | ⟨-, -, -, rfl⟩ | ⟨-, -, -, rfl⟩ | ⟨-, -, rfl⟩ | ⟨-, -, -, rfl⟩ | ⟨-, -, -, rfl⟩ |
    ⟨-, -, -, -, rfl⟩ | ⟨-, -, -, -, rfl⟩ | ⟨-, -, -, -, rfl⟩ := feedByte_cases h <;> rfl

theorem feedAll_parserMoved {bs : List Byte} {s t : State} (h : feedAll bs s = .next t) : s.ParserMoved t :=
  feedAll_induct (P := State.ParserMoved) (fun _ => rfl) (fun _ _ _ _ h k => (feedByte_parserMoved h).trans k) bs s t h

/-! Which operation changes a flag or TX (10 R23 (c), R24, R29). -/

section
variable {i : Instr} {s t : State}

theorem Completes.slotOccupied_cases (h : Completes i s t) :
    t.slotOccupied = s.slotOccupied ∨
    (t.slotOccupied = true ∧ ((∃ c p, i = .post c p) ∨ ∃ b, i = .hostcmd b)) ∨
    (t.slotOccupied = false ∧ (i = .drain ∨ i = .tick)) := by
  cases h with
  | feed h => exact .inl (feedByte_parserMoved h).slotOccupied_eq
  | wireFrame h | wakeupSeq h => exact .inl (feedAll_parserMoved h).slotOccupied_eq
  | postStored => exact .inr (.inl ⟨rfl, .inl ⟨_, _, rfl⟩⟩)
  | hostcmdStored => exact .inr (.inl ⟨rfl, .inr ⟨_, rfl⟩⟩)
  | drainTaken => exact .inr (.inr ⟨rfl, .inl rfl⟩)
  | tickTaken => exact .inr (.inr ⟨rfl, .inr rfl⟩)
  | serSent | serOversized | postDropped | drainEmpty | tickEmpty | hostcmdShort | hostcmdDelegated | hostcmdDropped
  | init | flush => exact .inl rfl

theorem Completes.linkReady_cases (h : Completes i s t) :
    t.linkReady = s.linkReady ∨ (i = .init ∧ t.linkReady = true) := by
  cases h with
  | feed h => exact .inl (feedByte_parserMoved h).linkReady_eq
  | wireFrame h | wakeupSeq h => exact .inl (feedAll_parserMoved h).linkReady_eq
  | init => exact .inr ⟨rfl, rfl⟩
  | serSent | serOversized | postStored | postDropped | drainTaken | drainEmpty | tickTaken | tickEmpty
  | hostcmdShort | hostcmdDelegated | hostcmdStored | hostcmdDropped | flush => exact .inl rfl

theorem Completes.tx_cases (h : Completes i s t) :
    t.tx = s.tx ∨ (((∃ c p, i = .ser c p) ∨ i = .tick ∨ i = .init) ∧ ∃ bs, t.tx = s.tx ++ bs) := by
  cases h with
  | feed h => exact .inl (feedByte_parserMoved h).tx_eq
  | wireFrame h | wakeupSeq h => exact .inl (feedAll_parserMoved h).tx_eq
  | serSent => exact .inr ⟨.inl ⟨_, _, rfl⟩, _, rfl⟩
  | tickTaken => exact .inr ⟨.inr (.inl rfl), _, rfl⟩
  | init => exact .inr ⟨.inr (.inr rfl), _, rfl⟩
  | serOversized | postStored | postDropped | drainTaken | drainEmpty | tickEmpty
  | hostcmdShort | hostcmdDelegated | hostcmdStored | hostcmdDropped | flush => exact .inl rfl

end

/-- Settles O35: the flags' owners are read off the ways in which an operation completes. -/
theorem flagsChangeOnlyByTheirOwners : Obligations.FlagsChangeOnlyByTheirOwners := by
  intro i s t h
  have hc := exec_completes h
  refine ⟨fun hs ht => ?_, fun hs ht => ?_, fun hne => hc.linkReady_cases.resolve_left hne⟩
  · obtain e | ⟨-, hi⟩ | ⟨e, -⟩ := hc.slotOccupied_cases
    · simp [hs, ht] at e
    · exact hi
    · simp [ht] at e
  · obtain e | ⟨e, -⟩ | ⟨-, hi⟩ := hc.slotOccupied_cases
    · simp [hs, ht] at e
    · simp [ht] at e
    · exact hi

/-- Settles O38: an operation keeps TX, or is SER, TICK or INIT and appends to it. -/
theorem txOnlyGrows : Obligations.TxOnlyGrows := by
  intro i s t h
  obtain e | ⟨hi, hbs⟩ := (exec_completes h).tx_cases
  · exact ⟨⟨[], by simp [e]⟩, fun hne => absurd e hne⟩
  · exact ⟨hbs, fun _ => hi⟩

/-! The invariants, over each named update of the state. -/

section
variable {s t : State}

/-- The invariants say nothing of the results, the inbox and the environment. -/
theorem State.Inv.outside (h : s.Inv) (rs : List Outputs) (inbox : List Input) (env : Env) :
    { s with results := rs, inbox := inbox, env := env : State }.Inv :=
  ⟨h.bodyOpen, h.slotFits, h.accWf, h.slotWf, h.quiet, h.framed⟩

theorem State.Inv.respond (h : s.Inv) (o : Outputs) : (s.respond o).Inv := h.outside _ _ _

theorem State.Inv.setPos_awaitHeader (h : s.Inv) : (s.setPos .awaitHeader).Inv :=
  { h with bodyOpen := nofun, quiet := fun hr => ⟨rfl, (h.quiet hr).2⟩ }

theorem State.Inv.setPos_awaitCommand (h : s.Inv) (hr : s.linkReady = true) : (s.setPos .awaitCommand).Inv :=
  { h with bodyOpen := nofun, quiet := fun e => absurd (hr.symm.trans e) (by decide) }

theorem State.Inv.latchCmd (h : s.Inv) (hr : s.linkReady = true) (b : Byte) : (s.latchCmd b).Inv :=
  { h with bodyOpen := nofun, quiet := fun e => absurd (hr.symm.trans e) (by decide) }

theorem State.Inv.beginBody (h : s.Inv) (hr : s.linkReady = true) {n : Nat} (h1 : 1 ≤ n) (h64 : n ≤ 64) :
    (s.beginBody n).Inv :=
  { h with
    bodyOpen := fun _ => by
      simp only [State.beginBody_rxExplen, State.beginBody_rxCnt, toNat_len7 h64, maxPayload_eq]
      exact ⟨h1, h64, h1⟩
    quiet := fun e => absurd (hr.symm.trans e) (by decide) }

/-- A body byte that is not the last leaves a byte missing. -/
theorem State.Inv.storeByte (h : s.Inv) (hp : s.rxPos = .awaitBody) (hne : s.rxCnt.toNat + 1 ≠ s.rxExplen.toNat)
    (b : Byte) : (s.storeByte b).Inv := by
  obtain ⟨h1, h64, hlt⟩ := h.bodyOpen hp
  rw [maxPayload_eq] at h64
  refine { h with bodyOpen := fun _ => ?_, accWf := Memory.wf_write b (by rw [maxPayload_eq]; omega) h.accWf }
  simp only [State.storeByte_rxExplen, State.storeByte_rxCnt, toNat_len7 (show s.rxCnt.toNat + 1 ≤ 64 by omega),
    maxPayload_eq]
  omega

/-- The byte that closes the body ends in AwaitHeader. -/
theorem State.Inv.closeBody (h : s.Inv) (hc : s.rxCnt.toNat < 64) (b : Byte) :
    ((s.storeByte b).setPos .awaitHeader).Inv :=
  { h with
    bodyOpen := nofun
    accWf := Memory.wf_write b hc h.accWf
    quiet := fun hr => ⟨rfl, (h.quiet hr).2⟩ }

theorem State.Inv.fillSlot (h : s.Inv) (c : Byte) {p : List Byte} (hp : p.length ≤ 64) : (s.fillSlot c p).Inv :=
  { h with
    slotFits := fun _ => by simpa only [State.fillSlot_slotLen, toNat_len7 hp, maxPayload_eq] using hp
    slotWf := Memory.wf_writeFrom p (by rw [maxPayload_eq]; omega) h.slotWf }

theorem State.Inv.vacate (h : s.Inv) : s.vacate.Inv := { h with slotFits := nofun }

/-- A legal frame sent is one more frame at the end of TX. -/
theorem State.Inv.send (h : s.Inv) (hr : s.linkReady = true) {f : Frame} (hf : f.payload.length ≤ 64) :
    (s.send f).Inv := by
  refine { h with quiet := fun e => absurd (hr.symm.trans e) (by decide), framed := fun _ => ?_ }
  obtain ⟨fs, hfs, htx⟩ := h.framed hr
  refine ⟨fs ++ [f], ?_, by simp [htx]⟩
  simpa only [List.forall_mem_append, List.forall_mem_singleton] using ⟨hfs, hf⟩

/-- INIT sends the wakeup sequence on a TX that is still empty. -/
theorem State.Inv.wakeLink (h : s.Inv) (hr : s.linkReady = false) : (s.emit Config.wakeupSeq).markReady.Inv :=
  { h with
    bodyOpen := nofun
    quiet := nofun
    framed := fun _ => ⟨[], nofun, by simp [(h.quiet hr).2]⟩ }

theorem State.reset_inv : State.reset.Inv :=
  ⟨nofun, nofun, Memory.wf_reset.1, Memory.wf_reset.2, fun _ => ⟨rfl, rfl⟩, nofun⟩

/-! The invariants, over a byte, an operation and a step. -/

theorem feedByte_inv {b : Byte} (hs : s.Inv) (h : feedByte b s = .next t) : t.Inv := by
  obtain ⟨-, rfl⟩ | ⟨hr, -, -, rfl⟩ | ⟨-, -, -, rfl⟩ | ⟨hr, -, rfl⟩ | ⟨-, -, -, rfl⟩ | ⟨-, -, -, rfl⟩ |
    ⟨hr, -, h1, h64, rfl⟩ | ⟨-, -, hc, -, rfl⟩ | ⟨-, hp, -, hne, rfl⟩ := feedByte_cases h
  · exact hs.respond _
  · exact (hs.setPos_awaitCommand hr).respond _
  · exact hs.respond _
  · exact (hs.latchCmd hr b).respond _
  · exact hs.setPos_awaitHeader.respond _
  · exact hs.setPos_awaitHeader.respond _
  · exact (hs.beginBody hr h1 h64).respond _
  · exact (hs.closeBody hc b).respond _
  · exact (hs.storeByte hp hne b).respond _

theorem feedAll_inv {bs : List Byte} (hs : s.Inv) (h : feedAll bs s = .next t) : t.Inv :=
  feedAll_induct (P := fun s t => s.Inv → t.Inv) (fun _ => id) (fun _ _ _ _ h k hs => k (feedByte_inv hs h)) bs s t h hs

theorem Completes.inv {i : Instr} (hs : s.Inv) (h : Completes i s t) : t.Inv := by
  cases h with
  | feed h => exact feedByte_inv hs h
  | wireFrame h | wakeupSeq h => exact feedAll_inv hs h
  | serSent hr hp => exact (hs.send hr hp).respond _
  | postStored hp | hostcmdStored _ hp => exact (hs.fillSlot _ hp).respond _
  | drainTaken => exact hs.vacate.respond _
  | tickTaken hr _ hl => exact (hs.vacate.send hr (by simpa [State.pending] using hl)).respond _
  | init hr => exact (hs.wakeLink hr).respond _
  | flush => exact hs.setPos_awaitHeader.respond _
  | serOversized | postDropped | drainEmpty | tickEmpty | hostcmdShort | hostcmdDelegated | hostcmdDropped =>
    exact hs.respond _

end

/-! The step. -/

/-- What the fetch can answer: the state it hands on differs from `s` in the inbox alone. -/
theorem fetch_cases (s : State) : ∃ rest : List Input,
    fetch s = .idle { s with inbox := rest } ∨ (∃ i, fetch s = .run i { s with inbox := rest }) ∨
    (∃ r, fetch s = .refuse r) ∨ fetch s = .reset { s with inbox := rest } ∨
    ∃ m, fetch s = .move m { s with inbox := rest } := by
  unfold fetch
  split
  · exact ⟨s.inbox, .inl rfl⟩
  · split
    · exact ⟨_, .inr (.inl ⟨_, rfl⟩)⟩
    · exact ⟨[], .inr (.inr (.inl ⟨_, rfl⟩))⟩
  · split
    · exact ⟨_, .inr (.inl ⟨_, rfl⟩)⟩
    · exact ⟨_, .inl rfl⟩
  · exact ⟨_, .inr (.inr (.inr (.inl rfl)))⟩
  · exact ⟨_, .inr (.inr (.inr (.inr ⟨_, rfl⟩)))⟩

/-- What a step can do (70 R221): nothing but take its entry from the inbox, an operation and the environment's
reaction, the reset, or a move of the environment. -/
theorem step_cases {s t : State} (h : step s = .next t) : ∃ rest : List Input,
    (fetch s = .idle { s with inbox := rest } ∧ t = { s with inbox := rest }) ∨
    (∃ i u, fetch s = .run i { s with inbox := rest } ∧ exec i { s with inbox := rest } = .next u ∧ t = s.observe u) ∨
    (fetch s = .reset { s with inbox := rest } ∧ t = { s with inbox := rest : State }.resetBlock) ∨
    (∃ m, fetch s = .move m { s with inbox := rest } ∧ t = { s with inbox := rest : State }.moveEnv m) := by
  obtain ⟨rest, e | ⟨i, e⟩ | ⟨r, e⟩ | e | ⟨m, e⟩⟩ := fetch_cases s <;> simp only [step, e] at h
  · cases h; exact ⟨rest, .inl ⟨e, rfl⟩⟩
  · cases hu : exec i { s with inbox := rest } with
    | next u => rw [hu] at h; cases h; exact ⟨rest, .inr (.inl ⟨i, u, e, hu, rfl⟩)⟩
    | fault | refused => rw [hu] at h; cases h
  · cases h
  · cases h; exact ⟨rest, .inr (.inr (.inl ⟨e, rfl⟩))⟩
  · cases h; exact ⟨rest, .inr (.inr (.inr ⟨m, e, rfl⟩))⟩

/-- Settles O40: each way a step ends keeps the invariants, an operation by `Completes.inv`. -/
theorem stepKeepsInvariants : Obligations.StepKeepsInvariants := by
  intro s t hs h
  obtain ⟨rest, ⟨-, rfl⟩ | ⟨i, u, -, hu, rfl⟩ | ⟨-, rfl⟩ | ⟨m, -, rfl⟩⟩ := step_cases h
  · exact hs.outside _ _ _
  · exact ((exec_completes hu).inv (hs.outside _ _ _)).outside _ _ _
  · exact State.reset_inv.outside _ _ _
  · exact hs.outside _ _ _

end Sys2Proof.Machine

/-! SUPPORT. A pending command stays whole until it is drained: no operation but DRAIN and TICK touches an occupied slot
(20 R50 (a), 42 R111 to R113). -/

namespace Sys2Proof.Machine

/-! Operations one after the other (20 R48). -/

/-- A run ends in a next state exactly when its first operation does and the rest runs on from there. -/
theorem execAll_cons_next_iff {i : Instr} {is : List Instr} {s u : State} :
    execAll (i :: is) s = .next u ↔ ∃ t, exec i s = .next t ∧ execAll is t = .next u := by
  cases hi : exec i s <;> simp [execAll, hi]

/-! The slot while it is occupied. -/

section
variable {i : Instr} {is : List Instr} {s t : State}

theorem State.ParserMoved.pending_eq (h : s.ParserMoved t) : t.pending = s.pending := by rw [h]; rfl

/-- The ways of storing need an empty slot, and the ways of taking belong to DRAIN and TICK; every other way leaves the
slot alone. -/
theorem Completes.keeps_pending (h : Completes i s t) (hi : drains i = false) (ho : s.slotOccupied = true) :
    t.slotOccupied = true ∧ t.pending = s.pending := by
  cases h with
  | feed h => exact ⟨(feedByte_parserMoved h).slotOccupied_eq.trans ho, (feedByte_parserMoved h).pending_eq⟩
  | wireFrame h | wakeupSeq h =>
    exact ⟨(feedAll_parserMoved h).slotOccupied_eq.trans ho, (feedAll_parserMoved h).pending_eq⟩
  | postStored _ he | hostcmdStored _ _ he => exact absurd (ho.symm.trans he) (by decide)
  | drainTaken | drainEmpty | tickTaken | tickEmpty => exact absurd hi (by decide)
  | serSent | serOversized | postDropped | hostcmdShort | hostcmdDelegated | hostcmdDropped | init | flush =>
    exact ⟨ho, rfl⟩

theorem execAll_keeps_pending (h : execAll is s = .next t) (his : ∀ i ∈ is, drains i = false)
    (ho : s.slotOccupied = true) : t.slotOccupied = true ∧ t.pending = s.pending := by
  induction is generalizing s with
  | nil => cases h; exact ⟨ho, rfl⟩
  | cons i is ih =>
    obtain ⟨hi, his⟩ := List.forall_mem_cons.1 his
    obtain ⟨u, hu, hrest⟩ := execAll_cons_next_iff.1 h
    obtain ⟨hou, hpu⟩ := (exec_completes hu).keeps_pending hi ho
    obtain ⟨hot, hpt⟩ := ih hrest his hou
    exact ⟨hot, hpt.trans hpu⟩

/-- POST into an empty slot stores a command that fits (42 R111). -/
theorem exec_post_stored {c : Byte} {p : List Byte} (ho : s.slotOccupied = false) (hp : p.length ≤ 64)
    (h : exec (.post c p) s = .next t) : t.slotOccupied = true ∧ t.pending = ⟨c, p⟩ := by
  cases exec_completes h with
  | postStored => exact ⟨rfl, pending_fillSlot s c hp⟩
  | postDropped hd => simp [ho, hp.not_gt] at hd

/-- DRAIN takes a pending command that fits (42 R113, R116). -/
theorem exec_drain_taken (ho : s.slotOccupied = true) (hl : s.pending.payload.length ≤ 64) :
    exec .drain s = .next (s.vacate.respond (drainOutputs (some s.pending))) := by
  have hl : s.slotLen.toNat ≤ 64 := by simpa [State.pending] using hl
  simp [exec, execDrain, drainSlot, ho, hl, maxPayload_eq]

end

/-- Settles O27: POST stores the command, the operations between keep it pending, and DRAIN takes what is pending. -/
theorem nextDrainReturnsThePost : Obligations.NextDrainReturnsThePost := by
  intro s t c p is ho hp his h
  obtain ⟨v, hpost, hrest⟩ := execAll_cons_next_iff.1 h
  obtain ⟨hov, hpv⟩ := exec_post_stored ho hp hpost
  obtain ⟨hot, hpt⟩ := execAll_keeps_pending hrest his hov
  have hpend : t.pending = ⟨c, p⟩ := hpt.trans hpv
  refine ⟨_, exec_drain_taken hot (by rw [hpend]; exact hp), ?_⟩
  simp [hpend, drainOutputs]

end Sys2Proof.Machine

/-! SUPPORT. Requests and their bytes: the decoder reads exactly the encodings of the well-formed requests, and refuses
every other byte string by name (30 R70 to R72). -/

namespace Sys2Proof

/-! Counted operands. -/

theorem takeBytes_countByte {p : List Byte} (h : p.length ≤ 255) (q : List Byte) :
    takeBytes (countByte p.length).toNat (p ++ q) = some (p, q) := by
  rw [toNat_countByte h, takeBytes_append]

/-- What a count byte takes is short enough to be counted by it. -/
theorem takeBytes_toNat_some {n : Byte} {bs p q : List Byte} (h : takeBytes n.toNat bs = some (p, q)) :
    p.length ≤ 255 ∧ countByte p.length = n ∧ p ++ q = bs := by
  obtain ⟨hbs, hlen⟩ := takeBytes_some h
  exact ⟨by omega, by rw [hlen, countByte_toNat], hbs.symm⟩

/-- A counted operand uses up the byte string exactly when the count is its length. -/
theorem exists_counted_all {n : Nat} {bs : List Byte} {f : List Byte → Instr} :
    (∃ i, (takeBytes n bs).map (fun x => (f x.1, x.2)) = some (i, [])) ↔ n = bs.length := by
  constructor
  · rintro ⟨i, h⟩
    rw [Option.map_eq_some_iff] at h
    obtain ⟨⟨p, q⟩, ht, e⟩ := h
    obtain ⟨rfl, rfl⟩ := takeBytes_some ht
    cases e
    simp
  · rintro rfl
    exact ⟨f bs, by simp [takeBytes]⟩

/-! Operation codes. -/

/-- Byte 0 is a reserved code, or the code of an operation (30 R70, R72). -/
theorem reserved_or_code (b : Byte) : (opOf b = none ∧ 8 ≤ b.toNat) ∨ ∃ o : Op, b = o.code ∧ b.toNat < 8 := by
  cases h : opOf b with
  | none =>
    refine .inl ⟨rfl, ?_⟩
    simp only [opOf, allOps, List.find?_eq_none, List.forall_mem_cons, Op.code, beq_iff_eq] at h
    bv_omega
  | some o => exact .inr ⟨o, (code_of_opOf h).symm, code_of_opOf h ▸ by cases o <;> decide⟩

/-! The first request of a byte string. -/

theorem parseRequest_code_iff {o : Op} {r : List Byte} {x : Instr × List Byte} :
    parseRequest (o.code :: r) = .ok x ↔ parseOperands o r = some x := by
  cases h : parseOperands o r <;> simp [parseRequest, h]

theorem parseRequest_encode {i : Instr} (hw : WellFormed i) (hr : i.isRequest = true) (q : List Byte) :
    parseRequest (encode i ++ q) = .ok (i, q) := by
  cases i with
  | feed | drain | tick | init | flush => rfl
  | ser c p | post c p | hostcmd p =>
    have hp : p.length ≤ 255 := of_decide_eq_true hw
    exact parseRequest_code_iff.2 (by simp [parseOperands, takeBytes_countByte hp])
  | wireFrame | wakeupSeq => cases hr

/-- Operand bytes that are read are those of a well-formed request's encoding. -/
theorem parseOperands_some {o : Op} {r q : List Byte} {i : Instr} (h : parseOperands o r = some (i, q)) :
    WellFormed i ∧ i.isRequest = true ∧ encode i ++ q = o.code :: r := by
  unfold parseOperands at h
  split at h
  -- The formats without a count, the three with one, and the operand bytes that fit no format.
  case h_1 | h_4 | h_5 | h_7 | h_8 => cases h; exact ⟨rfl, rfl, rfl⟩
  case h_2 | h_3 | h_6 =>
    rw [Option.map_eq_some_iff] at h
    obtain ⟨⟨p, q⟩, ht, e⟩ := h
    obtain ⟨hp, rfl, rfl⟩ := takeBytes_toNat_some ht
    cases e
    exact ⟨decide_eq_true hp, rfl, rfl⟩
  case h_9 => cases h

theorem parseRequest_ok {bs q : List Byte} {i : Instr} (h : parseRequest bs = .ok (i, q)) :
    WellFormed i ∧ i.isRequest = true ∧ encode i ++ q = bs := by
  cases bs with
  | nil => cases h
  | cons b r =>
    obtain ⟨hn, -⟩ | ⟨o, rfl, -⟩ := reserved_or_code b
    · simp [parseRequest, hn] at h
    · exact parseOperands_some (parseRequest_code_iff.1 h)

/-! The request decoder. -/

theorem decodeRequest_ok_iff {bs : List Byte} {i : Instr} :
    decodeRequest bs = .ok i ↔ parseRequest bs = .ok (i, []) := by
  unfold decodeRequest
  split <;> next h => simp [h]

theorem decodeRequest_reserved {b : Byte} (h : opOf b = none) (r : List Byte) :
    decodeRequest (b :: r) = .error .unknownOp := by
  simp [decodeRequest, parseRequest, h]

/-- A request with a known code is read, or malformed. -/
theorem decodeRequest_code_cases (o : Op) (r : List Byte) :
    (∃ i, decodeRequest (o.code :: r) = .ok i) ∨ decodeRequest (o.code :: r) = .error .malformedRequest := by
  cases h : parseOperands o r with
  | none => exact .inr (by simp [decodeRequest, parseRequest, h])
  | some x =>
    obtain ⟨i, _ | ⟨b, q⟩⟩ := x
    · exact .inl ⟨i, decodeRequest_ok_iff.2 (parseRequest_code_iff.2 h)⟩
    · exact .inr (by simp [decodeRequest, parseRequest, h])

/-! The wire rows at the front of RX. -/

theorem parseFrame_frameBytes {f : Frame} (h : f.payload.length ≤ 64) (rest : List Byte) :
    parseFrame (frameBytes f ++ rest) = some (f, rest) := by
  have hn : (countByte f.payload.length).toNat = f.payload.length := toNat_countByte (by omega)
  simp [parseFrame, frameBytes, hn, h, Config.maxPayload, takeBytes_append]

/-- A legal frame's length byte is not the wakeup sequence's third byte, 43 (30 R62, R68). -/
theorem frameBytes_ne_wakeupSeq {f : Frame} (h : f.payload.length ≤ 64) (rest : List Byte) :
    (frameBytes f ++ rest).take Config.wakeupSeq.length ≠ Config.wakeupSeq := by
  intro e
  have hn : countByte f.payload.length = 0x43 := by
    simpa [frameBytes, Config.wakeupSeq] using congrArg (fun bs : List Byte => bs.getD 2 0) e
  have h67 : f.payload.length = 67 := by
    rw [← toNat_countByte (n := f.payload.length) (by omega), hn]
    rfl
  omega

theorem decodeRx_frameBytes {f : Frame} (h : f.payload.length ≤ 64) (rest : List Byte) :
    decodeRx (frameBytes f ++ rest) = some (.wireFrame f.cmd f.payload, rest) := by
  have hp := parseFrame_frameBytes h rest
  have hw := frameBytes_ne_wakeupSeq h rest
  simp only [frameBytes, List.cons_append] at hp hw ⊢
  simp only [decodeRx, hw, hp, if_false]

theorem decodeRx_wakeupSeq (rest : List Byte) : decodeRx (Config.wakeupSeq ++ rest) = some (.wakeupSeq, rest) := rfl

end Sys2Proof

namespace Sys2Proof.Machine

/-- Settles O2: the request decoder reads back `encode`, and RX the two wire rows. -/
theorem encodeThenDecode : Obligations.EncodeThenDecode := by
  refine ⟨fun i hw hr => decodeRequest_ok_iff.2 ?_, fun i rest hw hr => ?_⟩
  · simpa using parseRequest_encode hw hr []
  · cases i with
    | wireFrame c p => exact decodeRx_frameBytes (f := ⟨c, p⟩) (of_decide_eq_true hw) rest
    | wakeupSeq => exact decodeRx_wakeupSeq rest
    | feed | ser | post | drain | tick | hostcmd | init | flush => cases hr

/-- Settles O3: what the request decoder reads is all of the byte string. -/
theorem decodeThenEncode : Obligations.DecodeThenEncode := by
  intro bs i h
  simpa using parseRequest_ok (decodeRequest_ok_iff.1 h)

/-- The operand bytes are used up exactly when the request has its format's length (30 R71). -/
theorem exists_parseOperands_all {o : Op} {r : List Byte} :
    (∃ i, parseOperands o r = some (i, [])) ↔ requestLength (o.code :: r) = some (r.length + 1) := by
  cases o with
  | drain | tick | init | flush => simp [parseOperands, requestLength, Op.code]
  | feed =>
    cases r with
    | nil => simp [parseOperands, requestLength, Op.code]
    | cons b r => simp [parseOperands, requestLength, Op.code]
  | hostcmd =>
    cases r with
    | nil => simp [parseOperands, requestLength, Op.code]
    | cons n r => exact exists_counted_all.trans (by simp [requestLength, Op.code]; omega)
  | ser | post =>
    match r with
    | [] | [_] => simp [parseOperands, requestLength, Op.code]
    | c :: n :: r => exact exists_counted_all.trans (by simp [requestLength, Op.code]; omega)

/-- Settles O4: a known code is read or malformed, and read exactly when its operands use up the byte string. -/
theorem requestsRefusedExactly : Obligations.RequestsRefusedExactly := by
  refine ⟨fun bs => ?_, rfl, fun b r hb => ?_⟩
  · cases bs with
    | nil => simp [decodeRequest, parseRequest]
    | cons b r =>
      obtain ⟨hn, hb⟩ | ⟨o, rfl, hb⟩ := reserved_or_code b
      · simp [decodeRequest_reserved hn, hb]
      · obtain ⟨i, e⟩ | e := decodeRequest_code_cases o r <;> simp [e, hb]
  · obtain ⟨-, h8⟩ | ⟨o, rfl, -⟩ := reserved_or_code b
    · omega
    · simp only [ne_eq, ← exists_parseOperands_all, ← parseRequest_code_iff, ← decodeRequest_ok_iff]
      obtain ⟨i, e⟩ | e := decodeRequest_code_cases o r <;> simp [e]

/-- Settles O1: the decoder runs on each of the eleven closed words. -/
theorem requestWordsDecode : Obligations.RequestWordsDecode :=
  ⟨rfl, rfl, rfl, rfl, rfl, rfl, rfl, rfl, rfl, rfl, rfl⟩

end Sys2Proof.Machine

/-! SUPPORT. Reception without a frame: the bytes that the parser discards (40 R81, R85) and the frame it rejects for
its length (R83), over a run of bytes. -/

namespace Sys2Proof.Machine

theorem exec_feed (b : Byte) (s : State) : exec (.feed b) s = feedByte b s := rfl

/-- FEED of each byte, as operations, is the parser over the bytes (30 R74). -/
theorem execAll_feeds (bs : List Byte) (s : State) : execAll (feeds bs) s = feedAll bs s := by
  induction bs generalizing s with
  | nil => rfl
  | cons b bs ih =>
    cases hb : feedByte b s with
    | next t => simpa [feeds, execAll, feedAll, exec_feed, hb] using ih t
    | fault r | refused r => simp [feeds, execAll, feedAll, exec_feed, hb]

/-- Settles O17: the two wire rows are the parser over their encodings. -/
theorem wireRowsAreFeeds : Obligations.WireRowsAreFeeds := by
  intro i s hi
  rw [execAll_feeds]
  cases i with
  | wireFrame | wakeupSeq => rfl
  | feed | ser | post | drain | tick | hostcmd | init | flush => cases hi

/-! One byte, by position. -/

section
variable {s : State} {b : Byte}

/-- Before INIT every byte is discarded, and in AwaitHeader every byte but the marker (40 R81, R85). -/
theorem feedByte_discarded (h : s.linkReady = false ∨ (s.rxPos = .awaitHeader ∧ b ≠ Config.hdr)) :
    feedByte b s = .next (s.respond .silent) := by
  unfold feedByte
  obtain hr | ⟨hp, hb⟩ := h
  · simp [hr]
  · simp [hp, isHeader, hb]

theorem feedByte_hdr (hr : s.linkReady = true) (hp : s.rxPos = .awaitHeader) :
    feedByte Config.hdr s = .next ((s.setPos .awaitCommand).respond .silent) := by
  simp [feedByte, hr, hp, isHeader]

theorem feedByte_awaitCommand (hr : s.linkReady = true) (hp : s.rxPos = .awaitCommand) :
    feedByte b s = .next ((s.latchCmd b).respond .silent) := by
  simp [feedByte, hr, hp]

theorem feedByte_oversized (hr : s.linkReady = true) (hp : s.rxPos = .awaitLength) (hb : 64 < b.toNat) :
    feedByte b s = .next ((s.setPos .awaitHeader).respond .silent) := by
  simp [feedByte, hr, hp, State.feedLength, hb]

end

/-! Runs of bytes. -/

/-- A run of discarded bytes leaves one silent result per byte and nothing else. -/
theorem feedAll_discarded {bs : List Byte} {s : State}
    (h : s.linkReady = false ∨ (s.rxPos = .awaitHeader ∧ NoMarker bs)) :
    feedAll bs s = .next { s with results := s.results ++ List.replicate bs.length Outputs.silent } := by
  induction bs generalizing s with
  | nil => simp [feedAll]
  | cons b bs ih =>
    have hb : s.linkReady = false ∨ (s.rxPos = .awaitHeader ∧ b ≠ Config.hdr) :=
      h.imp_right fun ⟨hp, hm⟩ => ⟨hp, hm b List.mem_cons_self⟩
    have hbs : s.linkReady = false ∨ (s.rxPos = .awaitHeader ∧ NoMarker bs) :=
      h.imp_right fun ⟨hp, hm⟩ => ⟨hp, fun c hc => hm c (List.mem_cons_of_mem b hc)⟩
    rw [feedAll_cons_next (feedByte_discarded hb), ih (s := s.respond .silent) hbs]
    simp [State.respond, List.replicate_succ]

/-- A frame whose length byte is above 64 is rejected, and a body free of the marker is hunted through (40 R83, R90). -/
theorem feedAll_oversizedFrame {s : State} {c n : Byte} {body : List Byte} (hr : s.linkReady = true)
    (hp : s.rxPos = .awaitHeader) (hn : 64 < n.toNat) (hm : NoMarker body) :
    feedAll (Config.hdr :: c :: n :: body) s = .next { s with
      rxCmd := c, results := s.results ++ List.replicate (3 + body.length) Outputs.silent } := by
  calc feedAll (Config.hdr :: c :: n :: body) s
    _ = feedAll (c :: n :: body) ((s.setPos .awaitCommand).respond .silent) := feedAll_cons_next (feedByte_hdr hr hp)
    _ = feedAll (n :: body) ((((s.setPos .awaitCommand).respond .silent).latchCmd c).respond .silent) :=
      feedAll_cons_next (feedByte_awaitCommand hr rfl)
    _ = feedAll body ((((((s.setPos .awaitCommand).respond .silent).latchCmd c).respond .silent).setPos
          .awaitHeader).respond .silent) := feedAll_cons_next (feedByte_oversized hr rfl hn)
    _ = _ := feedAll_discarded (.inr ⟨rfl, hm⟩)
    _ = _ := by simp [State.respond, State.setPos, State.latchCmd, hp, List.replicate_add, List.replicate_succ]

/-- Settles O16: received from AwaitHeader, the wakeup sequence is an oversized frame whose body is free of the marker;
before INIT it is discarded. -/
theorem wakeupBytesAreNoFrame : Obligations.WakeupBytesAreNoFrame := by
  refine fun s => ⟨fun hr hp => ?_, fun hr => feedAll_discarded (.inl hr)⟩
  exact feedAll_oversizedFrame (c := 0x10) (n := 0x43) (body := Config.wakeupSeq.drop 3) hr hp (by decide)
    (by unfold NoMarker; decide)

end Sys2Proof.Machine

/-! SUPPORT. The step, by what the fetch hands it (70 R221). -/

namespace Sys2Proof.Machine

theorem finish_eq_mapNext (s : State) (o : Host.Outcome State Fault Refusal) : finish s o = mapNext s.observe o := by
  cases o <;> rfl

theorem rxRest_eq (q : List Byte) (rest : List Input) : rxRest q rest = if q = [] then rest else .rx q :: rest := by
  cases q <;> rfl

theorem step_run {s t : State} {i : Instr} (h : fetch s = .run i t) : step s = mapNext t.observe (exec i t) := by
  simp only [step, h, finish_eq_mapNext]

/-! What the fetch takes from the inbox. -/

section
variable {s : State} {ctx : Context} {bs q : List Byte} {rest : List Input} {i : Instr}

theorem fetch_request_ok (hs : s.inbox = .request ctx bs :: rest) (h : decodeRequest bs = .ok i) :
    fetch s = .run i { s with inbox := rest } := by
  simp only [fetch, hs, h]

theorem fetch_request_error {e : DecodeError} (hs : s.inbox = .request ctx bs :: rest)
    (h : decodeRequest bs = .error e) : fetch s = .refuse (refusalOf e) := by
  simp only [fetch, hs, h]

theorem fetch_rx_some (hs : s.inbox = .rx bs :: rest) (h : decodeRx bs = some (i, q)) :
    fetch s = .run i { s with inbox := if q = [] then rest else .rx q :: rest } := by
  simp only [fetch, hs, h, rxRest_eq]

theorem fetch_rx_nil (hs : s.inbox = .rx [] :: rest) : fetch s = .idle { s with inbox := rest } := by
  simp only [fetch, hs, decodeRx]

theorem fetch_nil (hs : s.inbox = []) : fetch s = .idle s := by simp only [fetch, hs]

end

/-- Settles O45: the step does what the fetch hands it, for each shape of the inbox. -/
theorem stepRunsDecodedInstruction : Obligations.StepRunsDecodedInstruction := by
  refine ⟨fun s ctx bs rest i hs h => ?_, fun s bs q rest i hs h => ?_,
    fun s ctx bs rest hs => ⟨fun h => ?_, fun h => ?_⟩, fun s rest hs => ?_, fun s hs => ?_⟩
  · exact step_run (fetch_request_ok hs h)
  · exact step_run (fetch_rx_some hs h)
  · simp only [step, fetch_request_error hs h, refusalOf]
  · simp only [step, fetch_request_error hs h, refusalOf]
  · simp only [step, fetch_rx_nil hs]
  · simp only [step, fetch_nil hs]

end Sys2Proof.Machine

/-! SUPPORT. FEED, by the parser's position (40 R81 to R86): what one received byte does, and what it leaves alone. -/

namespace Sys2Proof.Machine

/-- A run of reads from the start, as the bytes at the indices below `n`. -/
theorem Memory.readBytes_eq_map_range (m : Memory) (n : Nat) : m.readBytes n = (List.range n).map m.read := by
  induction n with
  | zero => rfl
  | succ n ih => rw [readBytes_succ, ih, List.range_succ, List.map_append, List.map_singleton]

/-- The bytes below a written index, and then the byte written there. -/
theorem Memory.readBytes_write_succ (m : Memory) (i : Nat) (v : Byte) :
    (m.write i v).readBytes (i + 1) = m.readBytes i ++ [v] := by
  rw [readBytes_succ, read_write_same, readBytes_congr fun k hk => read_write_ne m v (Nat.ne_of_lt hk)]

section
variable {s t : State} {b : Byte}

theorem feedByte_zeroLength (hr : s.linkReady = true) (hp : s.rxPos = .awaitLength) (hb : b.toNat = 0) :
    feedByte b s = .next ((s.setPos .awaitHeader).respond { frame := some ⟨s.rxCmd, []⟩ }) := by
  simp [feedByte, hr, hp, State.feedLength, oversized, hb]

theorem feedByte_opensBody (hr : s.linkReady = true) (hp : s.rxPos = .awaitLength) (h1 : 1 ≤ b.toNat)
    (h64 : b.toNat ≤ 64) : feedByte b s = .next ((s.beginBody b.toNat).respond .silent) := by
  have h0 : b.toNat ≠ 0 := Nat.ne_zero_of_lt h1
  simp only [feedByte, hr, hp, State.feedLength, oversized_iff, h64.not_gt, h0, reduceCtorEq, if_false]

theorem feedByte_awaitBody (hr : s.linkReady = true) (hp : s.rxPos = .awaitBody) (hc : s.rxCnt.toNat < 64) :
    feedByte b s = .next (s.feedBody b) := by
  simp [feedByte, hr, hp, hc, maxPayload_eq]

theorem State.feedBody_last (h : s.rxCnt.toNat + 1 = s.rxExplen.toNat) : s.feedBody b =
    ((s.storeByte b).setPos .awaitHeader).respond
      { frame := some ⟨s.rxCmd, s.acc.readBytes s.rxCnt.toNat ++ [b]⟩ } := by
  simp [feedBody, closedFrame, ← h]

theorem State.feedBody_notLast (h : s.rxCnt.toNat + 1 ≠ s.rxExplen.toNat) :
    s.feedBody b = (s.storeByte b).respond .silent := by
  simp [feedBody, h]

/-- The relay, TX, the inbox and the environment are none of the parser's. -/
theorem State.ParserMoved.leaves_rest (h : s.ParserMoved t) :
    t.slotOccupied = s.slotOccupied ∧ t.slotCmd = s.slotCmd ∧ t.slotLen = s.slotLen ∧ t.slot = s.slot ∧
    t.linkReady = s.linkReady ∧ t.tx = s.tx ∧ t.inbox = s.inbox ∧ t.env = s.env := by
  rw [h]
  exact ⟨rfl, rfl, rfl, rfl, rfl, rfl, rfl, rfl⟩

/-- The parser's registers and buffer, each written in its own positions only (the table of 40 R86). -/
theorem feedByte_writes (h : feedByte b s = .next t) :
    (s.rxPos ≠ .awaitCommand → t.rxCmd = s.rxCmd) ∧
    (s.rxPos ≠ .awaitLength → t.rxExplen = s.rxExplen) ∧
    (s.rxPos ≠ .awaitLength → s.rxPos ≠ .awaitBody → t.rxCnt = s.rxCnt) ∧
    (∀ k, (s.rxPos = .awaitBody → k ≠ s.rxCnt.toNat) → t.acc.read k = s.acc.read k) := by
  obtain ⟨-, rfl⟩ | ⟨-, -, -, rfl⟩ | ⟨-, -, -, rfl⟩ | ⟨-, hp, rfl⟩ | ⟨-, -, -, rfl⟩ | ⟨-, -, -, rfl⟩ |
    ⟨-, hp, -, -, rfl⟩ | ⟨-, hp, -, -, rfl⟩ | ⟨-, hp, -, -, rfl⟩ := feedByte_cases h
  · exact ⟨fun _ => rfl, fun _ => rfl, fun _ _ => rfl, fun _ _ => rfl⟩
  · exact ⟨fun _ => rfl, fun _ => rfl, fun _ _ => rfl, fun _ _ => rfl⟩
  · exact ⟨fun _ => rfl, fun _ => rfl, fun _ _ => rfl, fun _ _ => rfl⟩
  · exact ⟨fun hn => absurd hp hn, fun _ => rfl, fun _ _ => rfl, fun _ _ => rfl⟩
  · exact ⟨fun _ => rfl, fun _ => rfl, fun _ _ => rfl, fun _ _ => rfl⟩
  · exact ⟨fun _ => rfl, fun _ => rfl, fun _ _ => rfl, fun _ _ => rfl⟩
  · exact ⟨fun _ => rfl, fun hn => absurd hp hn, fun hn => absurd hp hn, fun _ _ => rfl⟩
  · exact ⟨fun _ => rfl, fun _ => rfl, fun _ hn => absurd hp hn, fun k hk => Memory.read_write_ne _ _ (hk hp)⟩
  · exact ⟨fun _ => rfl, fun _ => rfl, fun _ hn => absurd hp hn, fun k hk => Memory.read_write_ne _ _ (hk hp)⟩

end

/-- Settles O5: before INIT a byte is discarded. -/
theorem feedBeforeInitDiscards : Obligations.FeedBeforeInitDiscards :=
  fun _ _ hr => feedByte_discarded (.inl hr)

/-- Settles O6: the marker moves the parser on, and any other byte is discarded. -/
theorem feedHuntsForHeader : Obligations.FeedHuntsForHeader := by
  intro s b hr hp
  by_cases hb : b = Config.hdr
  · rw [exec_feed, hb, feedByte_hdr hr hp, if_pos rfl]
    rfl
  · rw [exec_feed, feedByte_discarded (.inr ⟨hp, hb⟩), if_neg hb, ← hp]
    rfl

/-- Settles O7: in AwaitCommand every byte is latched. -/
theorem feedTakesCommandId : Obligations.FeedTakesCommandId :=
  fun _ _ hr hp => feedByte_awaitCommand hr hp

/-- Settles O8: one lemma per range of the length byte. -/
theorem feedReadsLength : Obligations.FeedReadsLength :=
  fun _ b hr hp => ⟨feedByte_oversized hr hp, feedByte_zeroLength hr hp, fun h1 h64 =>
    ⟨len7 b.toNat, toNat_len7 h64, feedByte_opensBody hr hp h1 h64⟩⟩

/-- Settles O9: the byte is stored in either case, and the last one closes the frame with what was stored before. -/
theorem feedStoresBodyByte : Obligations.FeedStoresBodyByte := by
  intro s b hr hp h1 h64 hlt
  have hc : s.rxCnt.toNat < 64 := by omega
  have hcnt : (len7 (s.rxCnt.toNat + 1)).toNat = s.rxCnt.toNat + 1 := toNat_len7 hc
  have hfeed : exec (.feed b) s = .next (s.feedBody b) := feedByte_awaitBody hr hp hc
  have hread : ∀ k, k ≠ s.rxCnt.toNat → (s.acc.write s.rxCnt.toNat b).read k = s.acc.read k :=
    fun k hk => Memory.read_write_ne _ _ hk
  by_cases hlast : s.rxCnt.toNat + 1 = s.rxExplen.toNat
  · rw [State.feedBody_last hlast] at hfeed
    refine ⟨_, hfeed, Memory.read_write_same .., hread, hcnt, fun _ => ?_, fun hn => absurd hlast hn⟩
    rw [← hlast, Nat.add_sub_cancel, ← Memory.readBytes_eq_map_range]
    rfl
  · rw [State.feedBody_notLast hlast] at hfeed
    exact ⟨_, hfeed, Memory.read_write_same .., hread, hcnt, fun he => absurd he hlast, fun _ => rfl⟩

/-- Settles O10: a byte moves the parser alone, and writes each of its fields in that field's positions only. -/
theorem feedLeavesTheRest : Obligations.FeedLeavesTheRest := by
  intro s t b h
  obtain ⟨ho, hc, hl, hs, hr, htx, hi, he⟩ := (feedByte_parserMoved h).leaves_rest
  exact ⟨ho, hc, hl, fun k => by rw [hs], hr, htx, hi, he, feedByte_writes h⟩

end Sys2Proof.Machine

/-! SUPPORT. Reception completes: with 10 R16 (a) no byte faults, each leaves one result, and each brings the parser
nearer to AwaitHeader (40 R80, R90). -/

namespace Sys2Proof.Machine

theorem feedAll_singleton (b : Byte) (s : State) : feedAll [b] s = feedByte b s := by
  cases h : feedByte b s <;> simp [feedAll, h]

/-- How many more bytes can pass before the parser is in AwaitHeader (40 R90). -/
def State.idleWithin (s : State) : Nat :=
  match s.rxPos with
  | .awaitHeader => 0
  | .awaitCommand => 66
  | .awaitLength => 65
  | .awaitBody => s.rxExplen.toNat - s.rxCnt.toNat

section
variable {s t : State} {b : Byte}

/-- 10 R16 (a) keeps the body's index inside ACC, so a byte never faults. -/
theorem exists_feedByte_next (hs : s.BodyOpen) (b : Byte) : ∃ t, feedByte b s = .next t := by
  obtain ⟨hrefused, hfault⟩ := feedByte_stop (b := b) (s := s)
  cases h : feedByte b s with
  | next t => exact ⟨t, rfl⟩
  | refused r => exact absurd h (hrefused r)
  | fault r =>
    obtain ⟨-, hp, hc⟩ := hfault r h
    have := hs hp
    rw [maxPayload_eq] at this
    omega

theorem feedByte_results (h : feedByte b s = .next t) : ∃ o, t.results = s.results ++ [o] := by
  obtain ⟨-, rfl⟩ | ⟨-, -, -, rfl⟩ | ⟨-, -, -, rfl⟩ | ⟨-, -, rfl⟩ | ⟨-, -, -, rfl⟩ | ⟨-, -, -, rfl⟩ |
    ⟨-, -, -, -, rfl⟩ | ⟨-, -, -, -, rfl⟩ | ⟨-, -, -, -, rfl⟩ := feedByte_cases h <;> exact ⟨_, rfl⟩

/-- An announced length of 1 to 64 opens a body with every byte missing. -/
theorem State.beginBody_bodyOpen (s : State) {n : Nat} (h1 : 1 ≤ n) (h64 : n ≤ 64) : (s.beginBody n).BodyOpen := by
  intro _
  rw [beginBody_rxExplen, beginBody_rxCnt, toNat_len7 h64, maxPayload_eq]
  exact ⟨h1, h64, h1⟩

theorem feedByte_bodyOpen (hs : s.BodyOpen) (h : feedByte b s = .next t) : t.BodyOpen := by
  obtain ⟨-, rfl⟩ | ⟨-, -, -, rfl⟩ | ⟨-, -, -, rfl⟩ | ⟨-, -, rfl⟩ | ⟨-, -, -, rfl⟩ | ⟨-, -, -, rfl⟩ |
    ⟨-, -, h1, h64, rfl⟩ | ⟨-, -, -, -, rfl⟩ | ⟨-, hp, hc, hne, rfl⟩ := feedByte_cases h
  · exact hs
  · exact nofun
  · exact hs
  · exact nofun
  · exact nofun
  · exact nofun
  · exact s.beginBody_bodyOpen h1 h64
  · exact nofun
  · intro _
    obtain ⟨hexp, hmax, hlt⟩ := hs hp
    simp only [State.respond_rxExplen, State.respond_rxCnt, State.storeByte_rxExplen, State.storeByte_rxCnt,
      toNat_len7 hc]
    omega

/-- Away from AwaitHeader, a byte brings the ready parser nearer to it. -/
theorem feedByte_idleWithin_lt (hr : s.linkReady = true) (hs : s.BodyOpen) (hp : s.rxPos ≠ .awaitHeader)
    (h : feedByte b s = .next t) : t.idleWithin < s.idleWithin := by
  obtain ⟨hn, -⟩ | ⟨-, hn, -, -⟩ | ⟨-, hn, -, -⟩ | ⟨-, hp, rfl⟩ | ⟨-, hp, -, rfl⟩ | ⟨-, hp, -, rfl⟩ |
    ⟨-, hp, h1, h64, rfl⟩ | ⟨-, hp, -, hlast, rfl⟩ | ⟨-, hp, hc, hne, rfl⟩ := feedByte_cases h
  · exact absurd (hr.symm.trans hn) (by decide)
  · exact absurd hn hp
  · exact absurd hn hp
  · simp [State.idleWithin, hp]
  · simp [State.idleWithin, hp]
  · simp [State.idleWithin, hp]
  · simp only [State.idleWithin, State.respond_rxPos, State.beginBody_rxPos, State.respond_rxExplen,
      State.beginBody_rxExplen, toNat_len7 h64, hp]
    omega
  · simp only [State.idleWithin, State.respond_rxPos, State.setPos_rxPos, hp]
    omega
  · have hlt := (hs hp).2.2
    simp only [State.idleWithin, State.respond_rxPos, State.storeByte_rxPos, State.respond_rxExplen,
      State.storeByte_rxExplen, State.respond_rxCnt, State.storeByte_rxCnt, toNat_len7 hc, hp]
    omega

theorem State.BodyOpen.idleWithin_le (hs : s.BodyOpen) : s.idleWithin ≤ 66 := by
  unfold State.idleWithin
  split
  · omega
  · omega
  · omega
  · next hp =>
    have := (hs hp).2.1
    rw [maxPayload_eq] at this
    omega

end

/-- With 10 R16 (a), any bytes are received whole, with one result each. -/
theorem feedAll_completes (bs : List Byte) {s : State} (hs : s.BodyOpen) :
    ∃ t os, feedAll bs s = .next t ∧ t.BodyOpen ∧ t.results = s.results ++ os ∧ os.length = bs.length := by
  induction bs generalizing s with
  | nil => exact ⟨s, [], rfl, hs, by simp, rfl⟩
  | cons b bs ih =>
    obtain ⟨u, hu⟩ := exists_feedByte_next hs b
    obtain ⟨o, ho⟩ := feedByte_results hu
    obtain ⟨t, os, ht, hopen, hres, hlen⟩ := ih (feedByte_bodyOpen hs hu)
    exact ⟨t, o :: os, (feedAll_cons_next hu).trans ht, hopen, by simp [hres, ho], by simp [hlen]⟩

/-- As many bytes as the bound says bring the parser to AwaitHeader. -/
theorem exists_feedAll_take_awaitHeader {bs : List Byte} {s : State} (hr : s.linkReady = true) (hs : s.BodyOpen)
    (hbs : s.idleWithin ≤ bs.length) :
    ∃ k t, k ≤ bs.length ∧ feedAll (bs.take k) s = .next t ∧ t.rxPos = .awaitHeader := by
  induction bs generalizing s with
  | nil =>
    by_cases hp : s.rxPos = .awaitHeader
    · exact ⟨0, s, le_rfl, rfl, hp⟩
    · obtain ⟨u, hu⟩ := exists_feedByte_next hs 0
      have hlt : u.idleWithin < s.idleWithin := feedByte_idleWithin_lt hr hs hp hu
      rw [List.length_nil] at hbs
      omega
  | cons b bs ih =>
    by_cases hp : s.rxPos = .awaitHeader
    · exact ⟨0, s, Nat.zero_le _, rfl, hp⟩
    · obtain ⟨u, hu⟩ := exists_feedByte_next hs b
      have hru : u.linkReady = true := (feedByte_parserMoved hu).linkReady_eq.trans hr
      have hlt : u.idleWithin < s.idleWithin := feedByte_idleWithin_lt hr hs hp hu
      rw [List.length_cons] at hbs
      obtain ⟨k, t, hk, ht, hpt⟩ := ih hru (feedByte_bodyOpen hs hu) (by omega)
      exact ⟨k + 1, t, Nat.succ_le_succ hk, (feedAll_cons_next hu).trans ht, hpt⟩

/-- FEED and the two wire rows are the reception of their bytes (log entry 7). -/
theorem exists_exec_eq_feedAll {i : Instr} (hi : i.isRequest = false ∨ ∃ b, i = .feed b) (s : State) :
    ∃ bs, exec i s = feedAll bs s ∧ bs.length = if i.isRequest then 1 else (encode i).length := by
  obtain hi | ⟨b, rfl⟩ := hi
  · exact ⟨encode i, by rw [wireRowsAreFeeds i s hi, execAll_feeds], by simp [hi]⟩
  · exact ⟨[b], (feedAll_singleton b s).symm, rfl⟩

/-- Settles O18: the instruction is the reception of its bytes, which completes and moves the parser alone. -/
theorem receptionCompletes : Obligations.ReceptionCompletes := by
  intro i s hs hi
  obtain ⟨bs, hexec, hbs⟩ := exists_exec_eq_feedAll hi s
  obtain ⟨t, os, ht, hopen, hres, hos⟩ := feedAll_completes bs hs
  exact ⟨t, os, hexec.trans ht, hopen, hres, hos.trans hbs, (feedAll_parserMoved ht).leaves_rest⟩

/-- Settles O13: the bound is at most 66, and every byte lowers it until the parser is in AwaitHeader. -/
theorem parserIdleWithin66Bytes : Obligations.ParserIdleWithin66Bytes := by
  intro s bs hr hs hbs
  obtain ⟨k, t, hk, ht, hp⟩ := exists_feedAll_take_awaitHeader hr hs (hbs ▸ hs.idleWithin_le)
  exact ⟨k, t, hbs ▸ hk, by rw [execAll_feeds, ht], hp⟩

end Sys2Proof.Machine

/-! SUPPORT. Runs of bytes: none before INIT counts (40 R85), an oversized frame gives nothing (R83, R90), a legal frame's
bytes give back the frame (R88), and a stream's bytes its frames, each on its last byte (R89). -/

namespace Sys2Proof.Machine

/-- Settles O15: before INIT every byte of a run is discarded. -/
theorem rxBeforeInitDiscarded : Obligations.RxBeforeInitDiscarded :=
  fun s bs hr => (execAll_feeds bs s).trans (feedAll_discarded (.inl hr))

/-- Settles O14: a frame announced as oversized is hunted through. -/
theorem oversizedFrameRejected : Obligations.OversizedFrameRejected :=
  fun s _ _ _ hr hp hn hm => (execAll_feeds _ s).trans (feedAll_oversizedFrame hr hp hn hm)

/-- The missing bytes of an open body close the frame of what ACC held and themselves (40 R84). -/
theorem feedAll_body {b : Byte} {p : List Byte} {s : State} (hr : s.linkReady = true) (hp : s.rxPos = .awaitBody)
    (h64 : s.rxExplen.toNat ≤ 64) (hlen : s.rxCnt.toNat + (p.length + 1) = s.rxExplen.toNat) :
    ∃ t, feedAll (b :: p) s = .next t ∧ t.rxPos = .awaitHeader ∧ t.rxCmd = s.rxCmd ∧
      t.results = s.results ++ List.replicate p.length Outputs.silent ++
        [{ frame := some ⟨s.rxCmd, s.acc.readBytes s.rxCnt.toNat ++ b :: p⟩ }] := by
  have hc : s.rxCnt.toNat < 64 := by omega
  induction p generalizing b s with
  | nil =>
    refine ⟨_, (feedAll_singleton b s).trans (feedByte_awaitBody hr hp hc), ?_⟩
    rw [State.feedBody_last hlen]
    exact ⟨rfl, rfl, by simp⟩
  | cons a p ih =>
    rw [List.length_cons] at hlen
    have hb : feedByte b s = .next ((s.storeByte b).respond .silent) := by
      rw [feedByte_awaitBody hr hp hc, State.feedBody_notLast (by omega)]
    have hcnt : (len7 (s.rxCnt.toNat + 1)).toNat = s.rxCnt.toNat + 1 := toNat_len7 hc
    obtain ⟨t, ht, hpt, hct, hres⟩ := ih (b := a) (s := (s.storeByte b).respond .silent) hr hp h64
      (by simp [hcnt]; omega) (by simp [hcnt]; omega)
    refine ⟨t, (feedAll_cons_next hb).trans ht, hpt, hct, ?_⟩
    simp [hres, hcnt, Memory.readBytes_write_succ, List.replicate_succ]

/-- The marker and a command id bring an idle ready parser to the length byte. -/
theorem feedAll_hdr_cmd {s : State} (c : Byte) (bs : List Byte) (hr : s.linkReady = true)
    (hp : s.rxPos = .awaitHeader) : feedAll (Config.hdr :: c :: bs) s =
      feedAll bs { s with rxPos := .awaitLength, rxCmd := c, results := s.results ++ [.silent, .silent] } := by
  calc feedAll (Config.hdr :: c :: bs) s
    _ = feedAll (c :: bs) ((s.setPos .awaitCommand).respond .silent) := feedAll_cons_next (feedByte_hdr hr hp)
    _ = feedAll bs ((((s.setPos .awaitCommand).respond .silent).latchCmd c).respond .silent) :=
      feedAll_cons_next (feedByte_awaitCommand hr rfl)
    _ = _ := by simp [State.respond, State.setPos, State.latchCmd]

/-- The length byte and the payload of a legal frame give the frame on the last of them. -/
theorem feedAll_length_payload {s : State} {p : List Byte} (hr : s.linkReady = true) (hp : s.rxPos = .awaitLength)
    (hlen : p.length ≤ 64) :
    ∃ t, feedAll (countByte p.length :: p) s = .next t ∧ t.rxPos = .awaitHeader ∧ t.rxCmd = s.rxCmd ∧
      t.results = s.results ++ List.replicate p.length Outputs.silent ++ [{ frame := some ⟨s.rxCmd, p⟩ }] := by
  have hn : (countByte p.length).toNat = p.length := toNat_countByte (by omega)
  cases p with
  | nil =>
    exact ⟨_, (feedAll_singleton _ s).trans (feedByte_zeroLength hr hp hn), rfl, rfl, by simp⟩
  | cons b p =>
    have hlen7 : (len7 (p.length + 1)).toNat = p.length + 1 := toNat_len7 hlen
    have hopen := feedByte_opensBody hr hp (by rw [hn]; exact Nat.succ_pos _) (hn.trans_le hlen)
    rw [hn, List.length_cons] at hopen
    obtain ⟨t, ht, hpt, hct, hres⟩ := feedAll_body (b := b) (p := p)
      (s := (s.beginBody (p.length + 1)).respond .silent) hr rfl (hlen7.trans_le hlen) (by simp [hlen7])
    refine ⟨t, (feedAll_cons_next hopen).trans ht, hpt, hct, ?_⟩
    simp [hres, Memory.readBytes, Memory.readFrom, List.replicate_succ]

/-- The bytes of a legal frame, received by an idle ready parser, give the frame on the last of them (40 R88). -/
theorem feedAll_frameBytes {s : State} {f : Frame} (hr : s.linkReady = true) (hp : s.rxPos = .awaitHeader)
    (hf : f.payload.length ≤ 64) :
    ∃ t, feedAll (frameBytes f) s = .next t ∧ t.rxPos = .awaitHeader ∧ t.rxCmd = f.cmd ∧
      t.results = s.results ++ List.replicate (2 + f.payload.length) Outputs.silent ++ [{ frame := some f }] := by
  obtain ⟨t, ht, hpt, hct, hres⟩ := feedAll_length_payload (p := f.payload)
    (s := { s with rxPos := .awaitLength, rxCmd := f.cmd, results := s.results ++ [.silent, .silent] }) hr rfl hf
  refine ⟨t, (feedAll_hdr_cmd f.cmd _ hr hp).trans ht, hpt, hct, ?_⟩
  simp [hres, List.replicate_add, List.replicate_succ]

/-- Settles O11: the wire row is the reception of the frame's bytes, which moves the parser alone. -/
theorem wireFrameRoundTrip : Obligations.WireFrameRoundTrip := by
  intro s c p hr hp hlen
  obtain ⟨t, ht, hpt, hct, hres⟩ := feedAll_frameBytes (f := ⟨c, p⟩) hr hp hlen
  exact ⟨t, ht, hpt, hct, hres, feedAll_parserMoved ht⟩

/-- A gap without the marker and a legal frame after it give one entry of the stream's results (40 R89). -/
theorem feedAll_gap_frame {s : State} {g : List Byte} {f : Frame} (hr : s.linkReady = true)
    (hp : s.rxPos = .awaitHeader) (hg : NoMarker g) (hf : f.payload.length ≤ 64) :
    ∃ t, feedAll (g ++ frameBytes f) s = .next t ∧ t.rxPos = .awaitHeader ∧
      t.results = s.results ++ streamResults [(g, f)] := by
  obtain ⟨t, ht, hpt, -, hres⟩ := feedAll_frameBytes (f := f)
    (s := { s with results := s.results ++ List.replicate g.length Outputs.silent }) hr hp hf
  refine ⟨t, (feedAll_append g _ (feedAll_discarded (.inr ⟨hp, hg⟩))).trans ht, hpt, ?_⟩
  simp [hres, streamResults, List.replicate_add]

/-- A stream of legal frames with marker-free gaps ends in AwaitHeader with the stream's results (40 R89). -/
theorem feedAll_streamBytes {q : List (List Byte × Frame)} {s : State} (hr : s.linkReady = true)
    (hp : s.rxPos = .awaitHeader) (hq : ∀ e ∈ q, NoMarker e.1 ∧ e.2.payload.length ≤ 64) :
    ∃ t, feedAll (streamBytes q) s = .next t ∧ t.rxPos = .awaitHeader ∧
      t.results = s.results ++ streamResults q := by
  induction q generalizing s with
  | nil => exact ⟨s, rfl, hp, by simp [streamResults]⟩
  | cons e q ih =>
    obtain ⟨⟨hg, hf⟩, hq⟩ := List.forall_mem_cons.1 hq
    obtain ⟨u, hu, hpu, hresu⟩ := feedAll_gap_frame hr hp hg hf
    have hru : u.linkReady = true := (feedAll_parserMoved hu).linkReady_eq.trans hr
    obtain ⟨t, ht, hpt, hrest⟩ := ih hru hpu hq
    refine ⟨t, (feedAll_append _ (streamBytes q) hu).trans ht, hpt, ?_⟩
    simp [hrest, hresu, streamResults]

/-- Settles O12: the stream's frames in order, and then the marker-free tail discarded. -/
theorem streamOfFramesParses : Obligations.StreamOfFramesParses := by
  intro s q g hr hp hq hg
  obtain ⟨t, ht, hpt, hres⟩ := feedAll_streamBytes hr hp hq
  refine ⟨{ t with results := t.results ++ List.replicate g.length Outputs.silent }, ?_, hpt, by rw [hres]⟩
  rw [execAll_feeds, feedAll_append _ g ht, feedAll_discarded (.inr ⟨hpt, hg⟩)]

end Sys2Proof.Machine

/-! SUPPORT. SER by its branches (41 R101), its mirror in the parser (R105), and what the operations that store nothing
leave alone. -/

namespace Sys2Proof.Machine

section
variable {s t : State} {b c : Byte} {p : List Byte} {i : Instr}

/-! SER. -/

theorem exec_ser_notReady (hr : s.linkReady = false) : exec (.ser c p) s = .refused .notReady := by
  simp [exec, execSer, hr]

theorem exec_ser_oversized (hr : s.linkReady = true) (hp : 64 < p.length) :
    exec (.ser c p) s = .next (s.raise { serResult := some (.oversizedPayload p.length) }) := by
  simp [exec, execSer, hr, hp]

theorem exec_ser_sent (hr : s.linkReady = true) (hp : p.length ≤ 64) :
    exec (.ser c p) s = .next ((s.send ⟨c, p⟩).respond { serResult := some .ok }) := by
  simp [exec, execSer, hr, hp]

/-- A SER of a legal payload that completes has appended the frame's bytes. -/
theorem exec_ser_tx (hp : p.length ≤ 64) (h : exec (.ser c p) s = .next t) : t.tx = s.tx ++ frameBytes ⟨c, p⟩ := by
  cases exec_completes h with
  | serSent => rfl
  | serOversized hr hn => omega

/-- A frame is returned by the ready parser only, and its payload is legal (40 R83, R84). -/
theorem feedByte_frame {f : Frame} (h : feedByte b s = .next t)
    (hf : t.results = s.results ++ [{ frame := some f }]) : t.linkReady = true ∧ f.payload.length ≤ 64 := by
  obtain ⟨-, rfl⟩ | ⟨-, -, -, rfl⟩ | ⟨-, -, -, rfl⟩ | ⟨-, -, rfl⟩ | ⟨-, -, -, rfl⟩ | ⟨hr, -, -, rfl⟩ |
    ⟨-, -, -, -, rfl⟩ | ⟨hr, -, hc, hlast, rfl⟩ | ⟨-, -, -, -, rfl⟩ := feedByte_cases h
  · simp at hf
  · simp at hf
  · simp at hf
  · simp at hf
  · simp at hf
  · obtain rfl : ⟨s.rxCmd, []⟩ = f := by simpa using hf
    exact ⟨hr, Nat.zero_le _⟩
  · simp at hf
  · obtain rfl : s.closedFrame b = f := by simpa using hf
    have hlen : (s.closedFrame b).payload.length = s.rxExplen.toNat - 1 + 1 := by simp [State.closedFrame]
    exact ⟨hr, by omega⟩
  · simp at hf

/-! DRAIN, TICK, SER, INIT and FLUSH. -/

/-- `t` is `s` but for the parser's position, the two flags, TX and the results: no byte is stored. -/
def State.StoredNothing (s t : State) : Prop :=
  t = { s with
    rxPos := t.rxPos, slotOccupied := t.slotOccupied, linkReady := t.linkReady, tx := t.tx, results := t.results }

theorem State.StoredNothing.leaves_rest (h : s.StoredNothing t) :
    t.acc = s.acc ∧ t.slot = s.slot ∧ t.rxCmd = s.rxCmd ∧ t.rxExplen = s.rxExplen ∧ t.rxCnt = s.rxCnt ∧
    t.slotCmd = s.slotCmd ∧ t.slotLen = s.slotLen ∧ t.inbox = s.inbox ∧ t.env = s.env := by
  rw [h]
  exact ⟨rfl, rfl, rfl, rfl, rfl, rfl, rfl, rfl, rfl⟩

theorem Completes.storedNothing (h : Completes i s t)
    (hi : i = .drain ∨ i = .tick ∨ i = .init ∨ i = .flush ∨ ∃ c p, i = .ser c p) : s.StoredNothing t := by
  obtain rfl | rfl | rfl | rfl | ⟨c, p, rfl⟩ := hi <;> cases h <;> rfl

theorem Completes.rxPos_eq (h : Completes i s t) (hi : i = .drain ∨ i = .tick ∨ ∃ c p, i = .ser c p) :
    t.rxPos = s.rxPos := by
  obtain rfl | rfl | ⟨c, p, rfl⟩ := hi <;> cases h <;> rfl

end

/-- Settles O19: one lemma per branch of SER. -/
theorem serTransmitsFrame : Obligations.SerTransmitsFrame :=
  fun _ _ _ => ⟨rfl, exec_ser_notReady, exec_ser_oversized, exec_ser_sent⟩

/-- Settles O20: SER appends the bytes of a legal frame, which the parser gives back; and a frame that the parser
returns is legal and leaves the link ready, so SER sends it. -/
theorem serMirrorsParser : Obligations.SerMirrorsParser := by
  refine ⟨fun s t u c p hp h hr hpos => ?_, fun s t b f _ h hf => ?_⟩
  · obtain ⟨v, hv, -, -, hres⟩ := feedAll_frameBytes (f := ⟨c, p⟩) hr hpos hp
    have hlen : (frameBytes ⟨c, p⟩).length - 1 = 2 + p.length := by
      simp only [frameBytes, List.length_cons]
      omega
    exact ⟨frameBytes ⟨c, p⟩, v, exec_ser_tx hp h, (execAll_feeds _ u).trans hv, by rw [hres, hlen]⟩
  · obtain ⟨hr, hlen⟩ := feedByte_frame h hf
    exact ⟨_, exec_ser_sent hr hlen, rfl⟩

/-- Settles O26: none of the five stores a byte, and the flags, TX and the position each have their own writers. -/
theorem nonStoringLeaveTheRest : Obligations.NonStoringLeaveTheRest := by
  intro i s t hi h
  have hc : Completes i s t := exec_completes h
  obtain ⟨hacc, hslot, hcmd, hexp, hcnt, hscmd, hslen, hinbox, henv⟩ := (hc.storedNothing hi).leaves_rest
  refine ⟨fun k => by rw [hacc], fun k => by rw [hslot], hcmd, hexp, hcnt, hscmd, hslen, hinbox, henv,
    fun hinit hflush => hc.rxPos_eq ?_, fun hdrain htick => ?_,
    fun hinit => hc.linkReady_cases.resolve_right fun ⟨e, _⟩ => hinit e, fun hkeep => ?_⟩
  · simpa [hinit, hflush] using hi
  · refine hc.slotOccupied_cases.resolve_right ?_
    rintro (⟨-, ⟨c, p, rfl⟩ | ⟨b, rfl⟩⟩ | ⟨-, hd⟩)
    · simp at hi
    · simp at hi
    · exact hd.elim hdrain htick
  · refine hc.tx_cases.resolve_right ?_
    rintro ⟨⟨c, p, rfl⟩ | rfl | rfl, -⟩ <;> simp at hkeep

end Sys2Proof.Machine

/-! SUPPORT. POST, DRAIN and TICK by their branches (42 R111 to R114), and the frame of the two producers. -/

namespace Sys2Proof.Machine

/-- The pending command, with its payload as the bytes at the indices below the length (42 R113). -/
theorem State.pending_eq_map_range (s : State) :
    s.pending = ⟨s.slotCmd, (List.range s.slotLen.toNat).map s.slot.read⟩ := by
  rw [State.pending, Memory.readBytes_eq_map_range]

section
variable {i : Instr} {s t : State} {c : Byte} {p : List Byte}

theorem State.length_pending_payload_le_iff {n : Nat} : s.pending.payload.length ≤ n ↔ s.slotLen.toNat ≤ n := by
  simp [State.pending]

theorem exec_post_dropped (hd : 64 < p.length ∨ s.slotOccupied = true) :
    exec (.post c p) s = .next (s.respond { postOk := some false }) := by
  obtain ⟨-, e⟩ | ⟨hp, ho, -⟩ := postSlot_cases c p s
  · simp [exec, execPost, e]
  · simp [ho, hp.not_gt] at hd

theorem exec_post_empty (ho : s.slotOccupied = false) (hp : p.length ≤ 64) :
    exec (.post c p) s = .next ((s.fillSlot c p).respond { postOk := some true }) := by
  obtain ⟨hd, -⟩ | ⟨-, -, e⟩ := postSlot_cases c p s
  · simp [ho, hp.not_gt] at hd
  · simp [exec, execPost, e]

theorem exec_drain_empty (ho : s.slotOccupied = false) : exec .drain s = .next (s.respond .silent) := by
  simp [exec, execDrain, drainSlot, drainOutputs, ho]

theorem exec_tick_notReady (hr : s.linkReady = false) : exec .tick s = .refused .notReady := by
  simp [exec, execTick, hr]

theorem exec_tick_empty (hr : s.linkReady = true) (ho : s.slotOccupied = false) :
    exec .tick s = .next (s.respond .silent) := by
  simp [exec, execTick, drainSlot, drainOutputs, hr, ho]

theorem exec_tick_taken (hr : s.linkReady = true) (ho : s.slotOccupied = true) (hl : s.slotLen.toNat ≤ 64) :
    exec .tick s = .next ((s.vacate.send s.pending).respond (drainOutputs (some s.pending))) := by
  simp [exec, execTick, drainSlot, hr, ho, hl, maxPayload_eq]

/-- A producer fills an empty slot, or does nothing but answer (42 R111, 43 R126). -/
theorem Completes.producer_cases (h : Completes i s t) (hi : (∃ c p, i = .post c p) ∨ ∃ b, i = .hostcmd b) :
    (s.slotOccupied = false ∧ ∃ c p o, p.length ≤ 64 ∧ t = (s.fillSlot c p).respond o) ∨ ∃ o, t = s.respond o := by
  cases h with
  | postStored hp ho | hostcmdStored _ hp ho => exact .inl ⟨ho, _, _, _, hp, rfl⟩
  | postDropped | hostcmdShort | hostcmdDelegated | hostcmdDropped => exact .inr ⟨_, rfl⟩
  | feed | wireFrame | wakeupSeq | serSent | serOversized | drainTaken | drainEmpty | tickTaken | tickEmpty | init
  | flush => simp at hi

/-- A filled slot holds the payload below its length, and above it the bytes it had (42 R111). -/
theorem State.fillSlot_read_of_le (hp : p.length ≤ 64) {k : Nat} (hk : (s.fillSlot c p).slotLen.toNat ≤ k) :
    (s.fillSlot c p).slot.read k = s.slot.read k := by
  rw [State.fillSlot_slotLen, toNat_len7 hp] at hk
  exact Memory.read_writeFrom_outside p s.slot 0 k (.inr (by omega))

end

/-- Settles O21: POST is dropped, or fills the slot. -/
theorem postStoresOrDrops : Obligations.PostStoresOrDrops := by
  intro s c p
  refine ⟨rfl, exec_post_dropped, fun hp ho => ?_⟩
  have hlen : (s.fillSlot c p).slotLen.toNat = p.length := toNat_len7 hp
  refine ⟨_, exec_post_empty ho hp, hlen, ?_, fun k hk => State.fillSlot_read_of_le hp (hlen.trans_le hk), rfl⟩
  rw [← Memory.readBytes_eq_map_range]
  exact Memory.readBytes_writeFrom s.slot p

/-- Settles O22: DRAIN takes what is pending, or finds the slot empty. -/
theorem drainTakesOrNone : Obligations.DrainTakesOrNone := by
  intro s
  refine ⟨rfl, fun ho hl => ?_, exec_drain_empty⟩
  rw [exec_drain_taken ho (State.length_pending_payload_le_iff.2 hl), State.pending_eq_map_range]
  rfl

/-- Settles O23: one lemma per branch of TICK. -/
theorem tickDrainsAndSends : Obligations.TickDrainsAndSends := by
  intro s
  refine ⟨exec_tick_notReady, fun hr ho hl => ⟨_, rfl, ?_⟩, exec_tick_empty⟩
  rw [exec_tick_taken hr ho hl, State.pending_eq_map_range]
  rfl

/-- Settles O24: with the slot empty both answer the same, and a pending command that fits is one SER sends. -/
theorem tickIsDrainThenSer : Obligations.TickIsDrainThenSer := by
  intro s hr hfits
  cases ho : s.slotOccupied with
  | false =>
    exact ⟨_, none, exec_drain_empty ho, rfl, fun _ => exec_tick_empty hr ho, fun _ hd => absurd hd nofun⟩
  | true =>
    have hl : s.slotLen.toNat ≤ 64 := hfits ho
    have hp : s.pending.payload.length ≤ 64 := State.length_pending_payload_le_iff.2 hl
    refine ⟨_, some s.pending, exec_drain_taken ho hp, rfl, nofun, fun f hf => ?_⟩
    cases hf
    exact ⟨_, exec_ser_sent hr hp, rfl, exec_tick_taken hr ho hl⟩

/-- Settles O25: filling the slot writes nothing past the new length, and an answer alone writes nothing. -/
theorem producerLeavesTheRest : Obligations.ProducerLeavesTheRest := by
  intro i s t hi h
  obtain ⟨ho, c, p, o, hp, rfl⟩ | ⟨o, rfl⟩ := (exec_completes h).producer_cases hi
  · exact ⟨rfl, rfl, rfl, rfl, fun _ => rfl, rfl, rfl, rfl, rfl,
      .inl ⟨ho, rfl, fun _ hk => State.fillSlot_read_of_le (c := c) hp hk⟩⟩
  · exact ⟨rfl, rfl, rfl, rfl, fun _ => rfl, rfl, rfl, rfl, rfl, .inr ⟨rfl, rfl, rfl, fun _ => rfl⟩⟩

/-- Two operations that both complete are a run of two. -/
theorem execAll_pair {i j : Instr} {s t u : State} (hi : exec i s = .next t) (hj : exec j t = .next u) :
    execAll [i, j] s = .next u := by
  simp [execAll, hi, hj]

/-- Settles O29: each order is two operations by their branches; a posted command is drained as it was filled in. -/
theorem postAndDrainEitherOrder : Obligations.PostAndDrainEitherOrder := by
  intro s c p hp hfits
  refine ⟨?_, fun ho => ?_⟩
  · rintro ho f rfl
    rw [← State.pending_eq_map_range]
    have hl : s.pending.payload.length ≤ 64 := State.length_pending_payload_le_iff.2 (hfits ho)
    refine ⟨⟨_, execAll_pair (exec_drain_taken ho hl) (exec_post_empty rfl hp), rfl, ?_⟩,
      ⟨_, execAll_pair (exec_post_dropped (.inr ho)) (exec_drain_taken ho hl), rfl, ?_⟩⟩ <;>
      exact List.append_assoc ..
  · have hpend : (s.fillSlot c p).pending = ⟨c, p⟩ := pending_fillSlot s c hp
    refine ⟨⟨_, execAll_pair (exec_drain_empty ho) (exec_post_empty ho hp), rfl, List.append_assoc ..⟩,
      ⟨_, execAll_pair (exec_post_empty ho hp) (exec_drain_taken rfl (hpend ▸ hp)), rfl, ?_⟩⟩
    rw [← hpend]
    exact List.append_assoc ..

end Sys2Proof.Machine

/-! SUPPORT. What an operation does at the slot, with the results that tell it (42 R111, R113, R116), and from it R117:
what goes into the slot comes out of it, or is still pending. -/

namespace Sys2Proof.Machine

/-! The pending command as a list, and results that are none of the relay's. -/

/-- The commands the slot holds: none or one (42 R117). -/
def State.pendingCommands (s : State) : List Frame := if s.slotOccupied then [s.pending] else []

/-- Results that drive no output of the relay (10 R31). -/
def RelayQuiet (os : List Outputs) : Prop := ∀ o ∈ os, o.postOk = none ∧ o.drained = none ∧ o.activity = false

section
variable {i : Instr} {is : List Instr} {s t : State} {os : List Outputs}

theorem State.pendingCommands_empty (h : s.slotOccupied = false) : s.pendingCommands = [] := by
  simp [pendingCommands, h]

theorem State.pendingCommands_occupied (h : s.slotOccupied = true) : s.pendingCommands = [s.pending] := by
  simp [pendingCommands, h]

theorem State.length_pendingCommands (s : State) : s.pendingCommands.length = s.slotOccupied.toNat := by
  cases h : s.slotOccupied <;> simp [pendingCommands, h]

theorem State.ParserMoved.pendingCommands_eq (h : s.ParserMoved t) : t.pendingCommands = s.pendingCommands := by
  rw [h]
  rfl

theorem relayQuiet_singleton {o : Outputs} (h : o.postOk = none ∧ o.drained = none ∧ o.activity = false) :
    RelayQuiet [o] := List.forall_mem_singleton.2 h

theorem RelayQuiet.postOks_eq_nil (h : RelayQuiet os) : os.filterMap (fun o => o.postOk) = [] :=
  List.filterMap_eq_nil_iff.2 fun o ho => (h o ho).1

theorem RelayQuiet.drainedCommands_eq_nil (h : RelayQuiet os) : drainedCommands os = [] :=
  List.filterMap_eq_nil_iff.2 fun o ho => (h o ho).2.1

theorem RelayQuiet.storedCount_eq_zero (h : RelayQuiet os) : storedCount os = 0 :=
  List.countP_eq_zero.2 fun o ho => by simp [(h o ho).1]

theorem feedByte_relayQuiet {b : Byte} (h : feedByte b s = .next t) :
    ∃ o, t.results = s.results ++ [o] ∧ RelayQuiet [o] := by
  obtain ⟨-, rfl⟩ | ⟨-, -, -, rfl⟩ | ⟨-, -, -, rfl⟩ | ⟨-, -, rfl⟩ | ⟨-, -, -, rfl⟩ | ⟨-, -, -, rfl⟩ |
    ⟨-, -, -, -, rfl⟩ | ⟨-, -, -, -, rfl⟩ | ⟨-, -, -, -, rfl⟩ := feedByte_cases h <;>
    exact ⟨_, rfl, relayQuiet_singleton ⟨rfl, rfl, rfl⟩⟩

theorem feedAll_relayQuiet {bs : List Byte} (h : feedAll bs s = .next t) :
    ∃ os, t.results = s.results ++ os ∧ RelayQuiet os := by
  refine feedAll_induct (P := fun s t => ∃ os, t.results = s.results ++ os ∧ RelayQuiet os)
    (fun s => ⟨[], by simp, nofun⟩) ?_ bs s t h
  rintro b s u v hu ⟨os, hv, hos⟩
  obtain ⟨o, hres, ho⟩ := feedByte_relayQuiet hu
  exact ⟨[o] ++ os, by rw [hv, hres, List.append_assoc], List.forall_mem_append.2 ⟨ho, hos⟩⟩

/-! One operation. -/

/-- What an operation does at the slot, with its results: it has nothing to do with the slot; it offers a command that
is stored; its offer, if any, is not stored; or it takes the pending command. -/
inductive SlotEvent (i : Instr) (s t : State) : List Outputs → Prop
  | quiet {os : List Outputs} (hi : offered i = none) (hos : RelayQuiet os)
      (hkept : t.pendingCommands = s.pendingCommands) : SlotEvent i s t os
  | stored {f : Frame} (hi : offered i = some (some f)) (hs : s.pendingCommands = [])
      (ht : t.pendingCommands = [f]) : SlotEvent i s t [{ postOk := some true }]
  | notStored {x : Option Frame} {d : Option (List Byte)} (hi : offered i = some x)
      (hkept : t.pendingCommands = s.pendingCommands) : SlotEvent i s t [{ postOk := some false, delegated := d }]
  | taken {f : Frame} (hi : offered i = none) (hd : drains i = true) (hs : s.pendingCommands = [f])
      (ht : t.pendingCommands = []) : SlotEvent i s t [drainOutputs (some f)]

theorem pendingCommands_fillSlot (s : State) (c : Byte) {p : List Byte} (hp : p.length ≤ 64) (o : Outputs) :
    ((s.fillSlot c p).respond o).pendingCommands = [⟨c, p⟩] := by
  rw [← pending_fillSlot s c hp]
  rfl

theorem Completes.slotEvent (h : Completes i s t) : ∃ os, t.results = s.results ++ os ∧ SlotEvent i s t os := by
  cases h with
  | feed h =>
    obtain ⟨o, hres, ho⟩ := feedByte_relayQuiet h
    exact ⟨[o], hres, .quiet rfl ho (feedByte_parserMoved h).pendingCommands_eq⟩
  | wireFrame h | wakeupSeq h =>
    obtain ⟨os, hres, hos⟩ := feedAll_relayQuiet h
    exact ⟨os, hres, .quiet rfl hos (feedAll_parserMoved h).pendingCommands_eq⟩
  | postStored hp ho =>
    exact ⟨_, rfl, .stored rfl (State.pendingCommands_empty ho) (pendingCommands_fillSlot s _ hp _)⟩
  | hostcmdStored hb hp ho =>
    exact ⟨_, rfl, .stored (by simp [offered, hb]) (State.pendingCommands_empty ho)
      (pendingCommands_fillSlot s _ hp _)⟩
  | postDropped => exact ⟨_, rfl, .notStored rfl rfl⟩
  | hostcmdShort hb | hostcmdDelegated hb | hostcmdDropped hb =>
    exact ⟨_, rfl, .notStored (by rw [offered, hb]) rfl⟩
  | drainTaken ho | tickTaken _ ho => exact ⟨_, rfl, .taken rfl rfl (State.pendingCommands_occupied ho) rfl⟩
  | serSent | serOversized | drainEmpty | tickEmpty | init | flush =>
    exact ⟨_, rfl, .quiet rfl (relayQuiet_singleton ⟨rfl, rfl, rfl⟩) rfl⟩

/-- What was pending and then what is stored is what is drained and then what is pending (42 R117). -/
theorem SlotEvent.conserves (h : SlotEvent i s t os) :
    s.pendingCommands ++ storedCommands [i] os = drainedCommands os ++ t.pendingCommands := by
  cases h with
  | quiet hi hos hkept => simp [storedCommands, hi, hos.drainedCommands_eq_nil, hkept]
  | stored hi hs ht => simp [storedCommands, drainedCommands, hi, hs, ht]
  | notStored hi hkept => simp [storedCommands, drainedCommands, hi, hkept]
  | taken hi _ hs ht => simp [storedCommands, drainedCommands, drainOutputs, hi, hs, ht]

/-- An operation that offers gives one `post_ok`, any other none, so its results pair with its offer. -/
theorem SlotEvent.storedCommands_cons (h : SlotEvent i s t os) (is : List Instr) (os' : List Outputs) :
    storedCommands (i :: is) (os ++ os') = storedCommands [i] os ++ storedCommands is os' := by
  cases h with
  | quiet hi hos => simp [storedCommands, hi, hos.postOks_eq_nil]
  | stored hi | notStored hi => simp [storedCommands, hi]
  | taken hi => simp [storedCommands, drainOutputs, hi]

/-- Only an offer of a command is answered with true. -/
theorem SlotEvent.storedCount_eq (h : SlotEvent i s t os) : storedCount os = (storedCommands [i] os).length := by
  cases h with
  | quiet hi hos => simp [storedCommands, hi, hos.storedCount_eq_zero]
  | stored hi | notStored hi => simp [storedCount, storedCommands, hi]
  | taken hi => simp [storedCount, storedCommands, drainOutputs, hi]

/-! Operations one after the other. -/

/-- R117 over a run, from any state. -/
theorem execAll_conserves (h : execAll is s = .next t) :
    ∃ os, t.results = s.results ++ os ∧ storedCount os = (storedCommands is os).length ∧
      s.pendingCommands ++ storedCommands is os = drainedCommands os ++ t.pendingCommands := by
  induction is generalizing s with
  | nil => cases h; exact ⟨[], by simp, rfl, by simp [storedCommands, drainedCommands]⟩
  | cons i is ih =>
    obtain ⟨u, hu, hrest⟩ := execAll_cons_next_iff.1 h
    obtain ⟨os, hos, hev⟩ := (exec_completes hu).slotEvent
    obtain ⟨os', hos', hcount, hcons⟩ := ih hrest
    refine ⟨os ++ os', by rw [hos', hos, List.append_assoc], ?_, ?_⟩
    · rw [hev.storedCommands_cons, List.length_append, ← hev.storedCount_eq, ← hcount]
      exact List.countP_append
    · calc s.pendingCommands ++ storedCommands (i :: is) (os ++ os')
          = drainedCommands os ++ (u.pendingCommands ++ storedCommands is os') := by
            rw [hev.storedCommands_cons, ← List.append_assoc, hev.conserves, List.append_assoc]
        _ = drainedCommands (os ++ os') ++ t.pendingCommands := by
            simp only [hcons, drainedCommands, List.filterMap_append, List.append_assoc]

theorem drainedCount_eq_length (os : List Outputs) : drainedCount os = (drainedCommands os).length :=
  List.length_filterMap_eq_countP.symm

end

/-- Settles O54: nothing is pending at the start, so what is stored is what is drained and what is pending. -/
theorem storedCommandsAreDrained : Obligations.StoredCommandsAreDrained := by
  intro s t is ho h
  obtain ⟨os, hres, -, hcons⟩ := execAll_conserves h
  rw [State.pendingCommands_empty ho, List.nil_append, State.pendingCommands, State.pending_eq_map_range] at hcons
  exact ⟨os, hres, hcons⟩

/-- Settles O28: the lengths of the lists that `execAll_conserves` equates. -/
theorem atMostOnePending : Obligations.AtMostOnePending := by
  intro s t is ho h
  obtain ⟨os, hres, hcount, hcons⟩ := execAll_conserves h
  rw [State.pendingCommands_empty ho, List.nil_append] at hcons
  refine ⟨os, hres, ?_⟩
  rw [hcount, hcons, List.length_append, State.length_pendingCommands, drainedCount_eq_length]

/-- Settles O30: of the four events at the slot, the taking of a command alone pulses activity. -/
theorem activityOnlyFromDrains : Obligations.ActivityOnlyFromDrains := by
  intro i s t h
  obtain ⟨os, hres, hev⟩ := (exec_completes h).slotEvent
  refine ⟨os, hres, ?_⟩
  cases hev with
  | quiet _ hos =>
    intro o ho
    obtain ⟨-, hd, ha⟩ := hos o ho
    simp [hd, ha]
  | stored | notStored => simp
  | taken _ hd => simp [drainOutputs, hd]

end Sys2Proof.Machine

/-! SUPPORT. HOSTCMD by the branches of 43 R126, each read off what `readHostCommand` says of the bytes. -/

namespace Sys2Proof.Machine

section
variable {s : State} {b c : Byte} {r p : List Byte}

theorem readHostCommand_selector_alone : readHostCommand [Config.fwdSubcmd] = .short := by
  simp [readHostCommand]

theorem readHostCommand_delegate (hb : b ≠ Config.fwdSubcmd) : readHostCommand (b :: r) = .delegate (b :: r) := by
  simp [readHostCommand, hb]

theorem readHostCommand_forward : readHostCommand (Config.fwdSubcmd :: c :: p) = .forward c p := by
  simp [readHostCommand]

theorem exec_hostcmd_short (h : readHostCommand r = .short) :
    exec (.hostcmd r) s = .next (s.respond { postOk := some false }) := by
  simp [exec, execHostcmd, h]

theorem exec_hostcmd_delegate (hb : b ≠ Config.fwdSubcmd) :
    exec (.hostcmd (b :: r)) s = .next (s.respond { postOk := some false, delegated := some (b :: r) }) := by
  simp [exec, execHostcmd, readHostCommand_delegate hb]

/-- The forwarding branch is the inner POST (43 R126). -/
theorem exec_hostcmd_forward : exec (.hostcmd (Config.fwdSubcmd :: c :: p)) s = exec (.post c p) s := by
  simp [exec, execHostcmd, execPost, readHostCommand_forward]

end

/-- Settles O31: one lemma per branch of HOSTCMD. -/
theorem hostCommandBranches : Obligations.HostCommandBranches := fun _ =>
  ⟨fun _ => rfl, exec_hostcmd_short rfl, fun _ _ => exec_hostcmd_delegate,
    exec_hostcmd_short readHostCommand_selector_alone, fun _ _ => exec_hostcmd_forward⟩

/-- Settles O32: the forwarding branch is POST, whose two outcomes O21 gives; the two bytes before the payload turn the
bound of 66 into POST's bound of 64. -/
theorem hostForwardStoresOrLost : Obligations.HostForwardStoresOrLost := by
  intro s c p
  obtain ⟨-, hdrop, hstore⟩ := postStoresOrDrops s c p
  have hlen : 66 < (Config.fwdSubcmd :: c :: p).length → 64 < p.length := by
    simp only [List.length_cons]
    omega
  rw [exec_hostcmd_forward]
  refine ⟨fun hp ho => ?_, fun hlost => hdrop (hlost.symm.imp_left hlen)⟩
  obtain ⟨t, ht, hn, hread, -, hrest⟩ := hstore hp ho
  exact ⟨t, ht, by rw [hrest], by rw [hrest], hn ▸ hread, by rw [hrest]⟩

end Sys2Proof.Machine

/-! SUPPORT. The relay and FLUSH in a state whose link_ready is replaced (44 R139), and the branches of INIT (44 R136,
R137). -/

namespace Sys2Proof.Machine

/-- `s` with `r` as link_ready. -/
def State.withLink (r : Bool) (s : State) : State := { s with linkReady := r }

section
variable {s : State} (r : Bool)

/-- A pending command that runs past the end of SLOT has no payload to return (10 R27). -/
theorem exec_drain_fault (ho : s.slotOccupied = true) (hl : 64 < s.slotLen.toNat) :
    exec .drain s = .fault .bufferIndex := by
  simp [exec, execDrain, drainSlot, ho, hl.not_ge, maxPayload_eq]

theorem exec_init_notReady (hr : s.linkReady = false) :
    exec .init s = .next ((s.emit Config.wakeupSeq).markReady.respond .silent) := by
  simp [exec, execInit, hr]

theorem exec_init_ready (hr : s.linkReady = true) : exec .init s = .refused .initTwice := by
  simp [exec, execInit, hr]

/-- POST is dropped or stores by the length and the slot's flag, which are the same for either link_ready. -/
theorem exec_post_withLink (c : Byte) (p : List Byte) :
    exec (.post c p) (s.withLink r) = mapNext (State.withLink r) (exec (.post c p) s) := by
  obtain ⟨hd, -⟩ | ⟨hp, ho, -⟩ := postSlot_cases c p s
  · rw [exec_post_dropped hd, exec_post_dropped (s := s.withLink r) hd]
    rfl
  · rw [exec_post_empty ho hp, exec_post_empty (s := s.withLink r) ho hp]
    rfl

/-- DRAIN's three outcomes are told apart by the slot's flag and length. -/
theorem exec_drain_withLink : exec .drain (s.withLink r) = mapNext (State.withLink r) (exec .drain s) := by
  obtain ⟨ho, -⟩ | ⟨ho, hl, -⟩ | ⟨ho, hl, -⟩ := drainSlot_cases s
  · rw [exec_drain_empty ho, exec_drain_empty (s := s.withLink r) ho]
    rfl
  · have hp : s.pending.payload.length ≤ 64 := State.length_pending_payload_le_iff.2 hl
    rw [exec_drain_taken ho hp, exec_drain_taken (s := s.withLink r) ho hp]
    rfl
  · rw [exec_drain_fault ho hl, exec_drain_fault (s := s.withLink r) ho hl]
    rfl

/-- HOSTCMD takes its branch by the bytes alone, and its forwarding branch is POST (43 R126). -/
theorem exec_hostcmd_withLink (b : List Byte) :
    exec (.hostcmd b) (s.withLink r) = mapNext (State.withLink r) (exec (.hostcmd b) s) := by
  cases b with
  | nil => rfl
  | cons a q =>
    by_cases ha : a = Config.fwdSubcmd
    · subst ha
      cases q with
      | nil =>
        rw [exec_hostcmd_short readHostCommand_selector_alone, exec_hostcmd_short readHostCommand_selector_alone]
        rfl
      | cons c p =>
        rw [exec_hostcmd_forward, exec_hostcmd_forward]
        exact exec_post_withLink r c p
    · rw [exec_hostcmd_delegate ha, exec_hostcmd_delegate ha]
      rfl

end

/-- Settles O36: one lemma per operation. -/
theorem relayIndependentOfLink : Obligations.RelayIndependentOfLink := by
  rintro i s r (rfl | rfl | ⟨c, p, rfl⟩ | ⟨b, rfl⟩)
  · exact exec_drain_withLink r
  · rfl
  · exact exec_post_withLink r c p
  · exact exec_hostcmd_withLink r b

/-- Settles O33: one lemma per branch of INIT. -/
theorem initWakesLinkOnce : Obligations.InitWakesLinkOnce :=
  fun _ => ⟨exec_init_notReady, exec_init_ready⟩

/-- Settles O34: FLUSH has one branch, which is the state the statement writes out. -/
theorem flushIdlesParser : Obligations.FlushIdlesParser := fun _ => rfl

end Sys2Proof.Machine

/-! SUPPORT. The environment's components after a step (45 R167): a step that is a move of them, the power machine by
its events (R155 to R166), and the reaction to the results of any other step. -/

namespace Sys2Proof.Machine

/-! Steps that are a move of the environment (70 R221). -/

section
variable {s t : State} {m : Move} {rest : List Input}

/-- A move changes the environment's components and takes its entry from the inbox, and nothing else. -/
theorem step_move (h : s.inbox = .move m :: rest) :
    step s = .next { s with inbox := rest, env := s.env.move m } := by
  simp only [step, fetch, h, State.moveEnv]

/-- A run goes on from the state its first step answers. -/
theorem run_succ {M : Host.Core} {s t : M.State} (h : M.step s = .next t) (k : Nat) : M.run (k + 1) s = M.run k t := by
  simp only [Host.Core.run, h]

theorem core_run_move (h : s.inbox = .move m :: rest) (k : Nat) :
    core.run (k + 1) s = core.run k { s with inbox := rest, env := s.env.move m } :=
  run_succ (M := core) (step_move h) k

end

/-! The power machine (45 R155 to R166). -/

section
variable {e : Env}

theorem Env.onKeyPressed_awake (h : e.power = .awake) : e.onKeyPressed = { e with idleStamp := e.now } := by
  simp only [onKeyPressed, h, onActivity]

theorem Env.onKeyPressed_asleep (h : e.power = .asleep) :
    e.onKeyPressed = { e with
      power := .awake, rendering := true, idleStamp := e.now, effects := e.effects ++ [.renderingEnable] } := by
  simp only [onKeyPressed, h, onActivity]

theorem Env.onIdleCheck_sleeps
    (h : e.power = .awake ∧ e.rendering = true ∧ Config.idleThreshold ≤ e.now - e.idleStamp) :
    e.onIdleCheck = { e with
      power := .asleep, rendering := false, effects := e.effects ++ [.renderingDisable] } := by
  obtain ⟨hp, hr, ht⟩ := h
  simp [onIdleCheck, idleElapsed, hp, hr, ht]

theorem Env.onIdleCheck_noop
    (h : e.power = .asleep ∨ e.rendering = false ∨ e.now - e.idleStamp < Config.idleThreshold) :
    e.onIdleCheck = e := by
  unfold onIdleCheck
  obtain hp | hr | ht := h
  · simp [hp]
  · simp [hr]
  · simp [idleElapsed, ht.not_ge]

@[simp] theorem Env.onIdleCheck_link : e.onIdleCheck.link = e.link := by
  unfold onIdleCheck
  split <;> rfl

@[simp] theorem Env.onIdleCheck_idleStamp : e.onIdleCheck.idleStamp = e.idleStamp := by
  unfold onIdleCheck
  split <;> rfl

theorem Env.onIdleCheck_power (hp : e.power = .awake) (hr : e.rendering = true) :
    e.onIdleCheck.power = if Config.idleThreshold ≤ e.now - e.idleStamp then .asleep else .awake := by
  by_cases ht : Config.idleThreshold ≤ e.now - e.idleStamp
  · rw [onIdleCheck_sleeps ⟨hp, hr, ht⟩, if_pos ht]
  · rw [onIdleCheck_noop (.inr (.inr (Nat.lt_of_not_ge ht))), if_neg ht, hp]

/-- Whether Disconnect resets the idle timer is open (45 R162). -/
theorem Env.onDisconnect_idleStamp : e.onDisconnect.idleStamp = e.now ∨ e.onDisconnect.idleStamp = e.idleStamp := by
  unfold onDisconnect
  cases Config.disconnectResetsIdle
  · exact .inr rfl
  · exact .inl rfl

theorem Env.onUnpair_usb (h : e.link = .usb) : e.onUnpair = e := by
  simp only [onUnpair, h]

theorem Env.onUnpair_peer {n : Fin Config.nPeers} (h : e.link = .peer n) :
    e.onUnpair = { e with
      paired := e.paired.set n.val false n.isLt, effects := e.effects ++ [.clearPairing n] } := by
  simp only [onUnpair, h]

end

/-- Settles O48: one lemma per sleep state. -/
theorem keyPressWakes : Obligations.KeyPressWakes := by
  refine fun s rest hs => ⟨fun hp => ?_, fun hp => ?_⟩
  · rw [step_move hs, Env.move, Env.onKeyPressed_awake hp]
  · rw [step_move hs, Env.move, Env.onKeyPressed_asleep hp]

/-- Settles O49: the first evaluation decides, and it leaves the second with nothing to do. -/
theorem idleSleepsOnce : Obligations.IdleSleepsOnce := by
  refine fun s rest hs => ⟨fun h => ?_, fun h => ?_⟩
  · rw [core_run_move hs, core_run_move rfl, Env.move, Env.move, Env.onIdleCheck_sleeps h,
      Env.onIdleCheck_noop (.inl rfl)]
    rfl
  · rw [core_run_move hs, core_run_move rfl, Env.move, Env.move, Env.onIdleCheck_noop h, Env.onIdleCheck_noop h]
    rfl

/-- Settles O51: each of the three moves by its definition. -/
theorem linkMoves : Obligations.LinkMoves := by
  refine fun s rest => ⟨fun l hs => step_move hs,
    fun hs => ⟨_, step_move hs, rfl, Env.onDisconnect_idleStamp, rfl⟩,
    fun hs => ⟨fun hl => ?_, fun n hl => ⟨_, step_move hs, ?_⟩⟩⟩
  · rw [step_move hs, Env.move, Env.onUnpair_usb hl]
  · rw [Env.move, Env.onUnpair_peer hl]
    exact ⟨hl, Vector.getElem_set_self _,
      fun k hk => Vector.getElem_set_ne n.isLt k.isLt fun e => hk (Fin.ext e.symm), rfl⟩

/-! The environment after a step (45 R167). -/

section
variable {i : Instr} {s t : State} {os : List Outputs}

/-- No operation writes the environment's components. -/
theorem Completes.env_eq (h : Completes i s t) : t.env = s.env := by
  cases h with
  | feed h => rw [feedByte_parserMoved h]
  | wireFrame h | wakeupSeq h => rw [feedAll_parserMoved h]
  | serSent | serOversized | postStored | postDropped | drainTaken | drainEmpty | tickTaken | tickEmpty
  | hostcmdShort | hostcmdDelegated | hostcmdStored | hostcmdDropped | init | flush => rfl

theorem State.observe_env (h : t.results = s.results ++ os) : (s.observe t).env = os.foldl Env.react t.env := by
  simp [observe, h]

theorem fetch_move {m : Move} {u : State} (h : fetch s = .move m u) : ∃ rest, s.inbox = .move m :: rest := by
  unfold fetch at h
  split at h
  · cases h
  · split at h <;> cases h
  · split at h <;> cases h
  · cases h
  · next hs => cases h; exact ⟨_, hs⟩

/-- The environment reacts to the results a step adds; a reset, which drops the results, leaves it alone; or the step is
a move of its own, which adds no result. -/
theorem step_env_cases (h : step s = .next t) :
    (∃ os, t.results = s.results ++ os ∧ t.env = os.foldl Env.react s.env) ∨
    (t.results = [] ∧ t.env = s.env) ∨
    (∃ m rest, s.inbox = .move m :: rest ∧ t.results = s.results ∧ t.env = s.env.move m) := by
  obtain ⟨rest, ⟨-, rfl⟩ | ⟨i, u, -, hu, rfl⟩ | ⟨-, rfl⟩ | ⟨m, hm, rfl⟩⟩ := step_cases h
  · exact .inl ⟨[], by simp, rfl⟩
  · have hc := exec_completes hu
    obtain ⟨os, hos, -⟩ := hc.slotEvent
    exact .inl ⟨os, hos, by rw [State.observe_env (s := s) hos, hc.env_eq]⟩
  · exact .inr (.inl ⟨rfl, rfl⟩)
  · obtain ⟨rest', hs⟩ := fetch_move hm
    exact .inr (.inr ⟨m, rest', hs, rfl, rfl⟩)

end

/-- A DRAIN request that takes a command, with the environment's reaction to its activity (42 R116, 45 R159). -/
theorem step_drain_taken {s : State} {ctx : Context} {rest : List Input} (hs : s.inbox = .request ctx [0x03] :: rest)
    (ho : s.slotOccupied = true) (hl : s.slotLen.toNat ≤ 64) :
    step s = .next { s.vacate with
      inbox := rest
      results := s.results ++ [drainOutputs (some s.pending)]
      env := { s.env with idleStamp := s.env.now } } := by
  have hexec : exec .drain { s with inbox := rest } =
      .next ({ s with inbox := rest : State }.vacate.respond (drainOutputs (some s.pending))) :=
    exec_drain_taken ho (State.length_pending_payload_le_iff.2 hl)
  rw [step_run (fetch_request_ok hs rfl), hexec]
  simp only [mapNext, State.observe, State.respond_results, State.vacate_results, List.drop_left]
  rfl

/-- Settles O50: DRAIN's result resets the idle timer, so the time since is `d` when the evaluation comes. -/
theorem forwardedCommandCountsAsActivity : Obligations.ForwardedCommandCountsAsActivity := by
  intro s ctx d rest hs ho hl hp hr
  rw [run_succ (M := core) (step_drain_taken hs ho hl), core_run_move rfl, core_run_move rfl]
  refine ⟨_, rfl, rfl, Env.onIdleCheck_idleStamp, ?_, Env.onIdleCheck_link⟩
  exact (Env.onIdleCheck_power (e := { s.env with now := s.env.now + d, idleStamp := s.env.now }) hp hr).trans
    (by simp only [Nat.add_sub_cancel_left])

end Sys2Proof.Machine

/-! SUPPORT. The dispatcher (45 R145 to R148) and the status mirror (R150 to R154): what a frame's effects record, and
which frame of a step's results the mirror follows. -/

namespace Sys2Proof.Machine

/-! The dispatcher. -/

section
variable {e : Env} {f : Frame}

@[simp] theorem Env.applyEffect_effects (f : Frame) (e : Env) (d : DispatchEffect) :
    (Env.applyEffect f e d).effects = e.effects ++ [.dispatched f d] := by
  cases d <;> rfl

@[simp] theorem Env.applyEffect_unknownLog (f : Frame) (e : Env) (d : DispatchEffect) :
    (Env.applyEffect f e d).unknownLog = e.unknownLog := by
  cases d <;> rfl

@[simp] theorem Env.logUnknown_effects : (e.logUnknown f).effects = e.effects := by
  unfold logUnknown
  split <;> rfl

theorem Env.logUnknown_unknownLog : (e.logUnknown f).unknownLog =
    e.unknownLog ++ if Config.knownCommand f.cmd then [] else [f.cmd] := by
  unfold logUnknown
  split <;> simp

/-- Effects are recorded in the order listed (45 R147). -/
theorem Env.foldl_applyEffect_effects (f : Frame) (ds : List DispatchEffect) :
    (ds.foldl (Env.applyEffect f) e).effects = e.effects ++ ds.map (.dispatched f) := by
  induction ds generalizing e with
  | nil => simp
  | cons d ds ih => simp [ih]

theorem Env.foldl_applyEffect_unknownLog (f : Frame) (ds : List DispatchEffect) :
    (ds.foldl (Env.applyEffect f) e).unknownLog = e.unknownLog := by
  induction ds generalizing e with
  | nil => rfl
  | cons d ds ih => simp [ih]

theorem Env.onFrame_effects :
    (e.onFrame f).effects = e.effects ++ (dispatchFrame f).map (.dispatched f) := by
  rw [onFrame, foldl_applyEffect_effects, logUnknown_effects]

theorem Env.onFrame_unknownLog : (e.onFrame f).unknownLog =
    e.unknownLog ++ if Config.knownCommand f.cmd then [] else [f.cmd] := by
  rw [onFrame, foldl_applyEffect_unknownLog, logUnknown_unknownLog]

end

/-- Settles O53: the step's one new result is the frame, and the environment's reaction to it is the dispatch. -/
theorem frameIsDispatched : Obligations.FrameIsDispatched := by
  intro s t ctx b rest f hs h hres
  obtain ⟨os, hos, henv⟩ | ⟨hnil, -⟩ | ⟨m, rest', hm, -⟩ := step_env_cases h
  · obtain rfl : [{ frame := some f }] = os := List.append_cancel_left (hres.symm.trans hos)
    have hframe : t.env = s.env.onFrame f := henv
    rw [hframe]
    exact ⟨Env.onFrame_effects, Env.onFrame_unknownLog⟩
  · simp [hres] at hnil
  · simp [hs] at hm

/-! The status mirror. -/

/-- How the mirror stands in `e'` to the mirror in `e`: kept, or overwritten for a status-class frame with a value drawn
since `e`. -/
inductive Env.MirrorFollows (e e' : Env) : Option Frame → Prop
  | kept (hm : e'.mirror = e.mirror) (hd : e'.draws = e.draws) : MirrorFollows e e' none
  | overwritten {f : Frame} {n : Nat} (hn : e.draws ≤ n) (hd : e'.draws = n + 1)
      (hm : e'.mirror = ⟨Config.frameCapslock f, Config.linkIndex n⟩) : MirrorFollows e e' (some f)

/-- The last frame of a list whose effects update the mirror. -/
def lastMirrorFrame (fs : List Frame) : Option Frame := (fs.filter updatesMirror).getLast?

section
variable {e e' e'' : Env} {x y : Option Frame}

/-- The later overwriting counts. -/
theorem Env.MirrorFollows.trans (h : e.MirrorFollows e' x) (k : e'.MirrorFollows e'' y) :
    e.MirrorFollows e'' (y.or x) := by
  cases k with
  | kept hm hd =>
    cases h with
    | kept hm' hd' => exact .kept (hm.trans hm') (hd.trans hd')
    | overwritten hn' hd' hm' => exact .overwritten hn' (hd.trans hd') (hm.trans hm')
  | overwritten hn hd hm =>
    cases h with
    | kept _ hd' => exact .overwritten (hd' ▸ hn) hd hm
    | overwritten hn' hd' _ => exact .overwritten (by omega) hd hm

theorem Env.applyEffect_mirror (f : Frame) (d : DispatchEffect) :
    e.MirrorFollows (e.applyEffect f d) (if d = .updateStatusMirror then some f else none) := by
  cases d with
  | updateStatusMirror => exact .overwritten le_rfl rfl rfl
  | triggerLedPattern | forwardToHost | further => exact .kept rfl rfl

theorem Env.foldl_applyEffect_mirror (f : Frame) (ds : List DispatchEffect) :
    e.MirrorFollows (ds.foldl (Env.applyEffect f) e) (if .updateStatusMirror ∈ ds then some f else none) := by
  induction ds generalizing e with
  | nil => exact .kept rfl rfl
  | cons d ds ih =>
    have h := (Env.applyEffect_mirror (e := e) f d).trans ih
    by_cases hds : .updateStatusMirror ∈ ds
    · simpa [hds] using h
    · simpa [hds, eq_comm] using h

theorem Env.logUnknown_mirror (f : Frame) : e.MirrorFollows (e.logUnknown f) none := by
  unfold logUnknown
  split <;> exact .kept rfl rfl

theorem Env.onFrame_mirror (f : Frame) : e.MirrorFollows (e.onFrame f) (if updatesMirror f then some f else none) := by
  have h := (logUnknown_mirror (e := e) f).trans (foldl_applyEffect_mirror f (dispatchFrame f))
  rw [Option.or_none] at h
  simpa only [onFrame, updatesMirror, List.contains_iff_mem] using h

theorem lastMirrorFrame_append (fs gs : List Frame) :
    lastMirrorFrame (fs ++ gs) = (lastMirrorFrame gs).or (lastMirrorFrame fs) := by
  simp [lastMirrorFrame, List.getLast?_append]

theorem lastMirrorFrame_singleton (f : Frame) : lastMirrorFrame [f] = if updatesMirror f then some f else none := by
  by_cases h : updatesMirror f <;> simp [lastMirrorFrame, h]

theorem Env.react_of_frame {o : Outputs} {f : Frame} (h : o.frame = some f) :
    e.react o = if o.activity then (e.onFrame f).onActivity else e.onFrame f := by
  simp only [react, h]

theorem Env.react_of_no_frame {o : Outputs} (h : o.frame = none) :
    e.react o = if o.activity then e.onActivity else e := by
  simp only [react, h]

/-- Activity is none of the mirror's. -/
theorem Env.MirrorFollows.ite_onActivity (h : e.MirrorFollows e' x) (a : Bool) :
    e.MirrorFollows (if a then e'.onActivity else e') x := by
  cases a with
  | false => exact h
  | true => simpa using h.trans (e'' := e'.onActivity) (.kept rfl rfl)

theorem Env.react_mirror (o : Outputs) : e.MirrorFollows (e.react o) (lastMirrorFrame (framesOf [o])) := by
  cases hf : o.frame with
  | none =>
    have hfs : framesOf [o] = [] := by simp [framesOf, hf]
    rw [react_of_no_frame hf, hfs]
    exact MirrorFollows.ite_onActivity (.kept rfl rfl) o.activity
  | some f =>
    have hfs : framesOf [o] = [f] := by simp [framesOf, hf]
    rw [react_of_frame hf, hfs, lastMirrorFrame_singleton]
    exact (onFrame_mirror f).ite_onActivity o.activity

/-- The mirror after a list of results, oldest first: overwritten for the last status-class frame among them. -/
theorem Env.foldl_react_mirror (os : List Outputs) :
    e.MirrorFollows (os.foldl Env.react e) (lastMirrorFrame (framesOf os)) := by
  induction os generalizing e with
  | nil => exact .kept rfl rfl
  | cons o os ih =>
    have happ : framesOf (o :: os) = framesOf [o] ++ framesOf os := List.filterMap_append (l := [o])
    rw [happ, lastMirrorFrame_append]
    exact (react_mirror o).trans ih

/-! The status poll. -/

theorem Env.onStatusPoll_whole {w : Nat} {bs : List Byte} {b : Byte} (hw : w ≤ 10) (hbs : bs.length = 11)
    (hb : bs[10]? = some b) : e.onStatusPoll w bs = e.overwriteMirror (Config.capslockTrue b) := by
  have hlast : bs.getD (Config.statusLen - 1) 0 = b := by rw [List.getD_eq_getElem?_getD]; exact hb ▸ rfl
  rw [onStatusPoll, if_pos ⟨hw, hbs⟩, hlast]

theorem Env.onStatusPoll_partial {w : Nat} {bs : List Byte} (h : 10 < w ∨ bs.length ≠ 11) :
    e.onStatusPoll w bs = e := by
  have hn : ¬ (w ≤ Config.statusTimeout ∧ bs.length = Config.statusLen) := by
    simp only [Config.statusTimeout, Config.statusLen]
    omega
  rw [onStatusPoll, if_neg hn]

/-- Of the moves, the poll alone touches the mirror. -/
theorem Env.move_mirror {m : Move} (h : ∀ w bs, m ≠ .statusPoll w bs) : e.MirrorFollows (e.move m) none := by
  cases m with
  | elapse | selectLink | disconnect | pairingStored => exact .kept rfl rfl
  | keyPressed => rw [move, onKeyPressed]; split <;> exact .kept rfl rfl
  | idleCheck => rw [move, onIdleCheck]; split <;> exact .kept rfl rfl
  | unpair => rw [move, onUnpair]; split <;> exact .kept rfl rfl
  | statusPoll w bs => exact absurd rfl (h w bs)

end

/-- The mirror after a step that is no poll: it follows the step's new results, or is kept by a reset. -/
theorem step_mirror {s t : State} (h : step s = .next t)
    (hn : ∀ w bs rest, s.inbox ≠ .move (.statusPoll w bs) :: rest) :
    (∃ os, t.results = s.results ++ os ∧ s.env.MirrorFollows t.env (lastMirrorFrame (framesOf os))) ∨
    (t.results = [] ∧ t.env.mirror = s.env.mirror) := by
  obtain ⟨os, hos, henv⟩ | ⟨hnil, henv⟩ | ⟨m, rest, hm, hkept, henv⟩ := step_env_cases h
  · exact .inl ⟨os, hos, henv ▸ Env.foldl_react_mirror os⟩
  · exact .inr ⟨hnil, by rw [henv]⟩
  · refine .inl ⟨[], by simp [hkept], henv ▸ Env.move_mirror ?_⟩
    rintro w bs rfl
    exact hn w bs rest hm

/-- Settles O55: a poll by its two cases; any other step by the last status-class frame among its new results. -/
theorem mirrorIsOverwritten : Obligations.MirrorIsOverwritten := by
  refine ⟨fun s w bs rest hs => ⟨fun b hw hbs hb => ?_, fun h => ?_⟩, fun s t os hn h hres => ?_⟩
  · rw [step_move hs, Env.move, Env.onStatusPoll_whole hw hbs hb]
    rfl
  · rw [step_move hs, Env.move, Env.onStatusPoll_partial h]
  · obtain ⟨os', hos, hf⟩ | ⟨hnil, hm⟩ := step_mirror h hn
    · obtain rfl : os = os' := List.append_cancel_left (hres.symm.trans hos)
      unfold lastMirrorFrame at hf
      generalize ((framesOf os).filter updatesMirror).getLast? = x at hf ⊢
      cases hf with
      | kept hm _ => exact hm
      | overwritten hle hd hm => exact ⟨_, hle, hd, hm⟩
    · obtain rfl : os = [] := (List.append_eq_nil_iff.1 (hres.symm.trans hnil)).2
      exact hm

theorem mem_of_lastMirrorFrame {fs : List Frame} {f : Frame} (h : lastMirrorFrame fs = some f) :
    f ∈ fs ∧ .updateStatusMirror ∈ dispatchFrame f := by
  simpa [updatesMirror] using List.mem_filter.1 (List.mem_of_getLast? h)

/-- Settles O52: a poll that is not whole keeps the mirror, and so does any other step without a status-class frame
among its new results. -/
theorem mirrorHoldsUntilOverwritten : Obligations.MirrorHoldsUntilOverwritten := by
  intro s t h hne
  by_cases hpoll : ∃ w bs rest, s.inbox = .move (.statusPoll w bs) :: rest
  · obtain ⟨w, bs, rest, hs⟩ := hpoll
    by_cases hw : w ≤ 10 ∧ bs.length = 11
    · exact .inl ⟨w, bs, rest, hs, hw⟩
    · rw [step_move hs, Env.move, Env.onStatusPoll_partial (by omega)] at h
      cases h
      exact absurd rfl hne
  · obtain ⟨os, hos, hf⟩ | ⟨-, hm⟩ := step_mirror h fun w bs rest hs => hpoll ⟨w, bs, rest, hs⟩
    · cases hlast : lastMirrorFrame (framesOf os) with
      | none =>
        rw [hlast] at hf
        cases hf with
        | kept hm _ => exact absurd hm hne
      | some f => exact .inr ⟨os, f, hos, mem_of_lastMirrorFrame hlast⟩
    · exact absurd hm hne

end Sys2Proof.Machine

/-! SUPPORT. No operation reads the environment's components (45 R167, 60 R193): the fetch, the parser and each
operation in a state whose components are replaced. -/

namespace Sys2Proof.Machine

/-- `s` with `e` as the environment's components. -/
def State.withEnv (e : Env) (s : State) : State := { s with env := e }

section
variable (e : Env) {s : State}

theorem State.feedLength_withEnv (b : Byte) : (s.withEnv e).feedLength b = (s.feedLength b).withEnv e := by
  unfold feedLength
  split
  · rfl
  · split <;> rfl

theorem State.feedBody_withEnv (b : Byte) : (s.withEnv e).feedBody b = (s.feedBody b).withEnv e := by
  by_cases h : s.rxCnt.toNat + 1 = s.rxExplen.toNat
  · rw [feedBody_last h, feedBody_last (s := s.withEnv e) h]
    rfl
  · rw [feedBody_notLast h, feedBody_notLast (s := s.withEnv e) h]
    rfl

theorem feedByte_withEnv (b : Byte) : feedByte b (s.withEnv e) = mapNext (State.withEnv e) (feedByte b s) := by
  have hr : (s.withEnv e).linkReady = s.linkReady := rfl
  have hp : (s.withEnv e).rxPos = s.rxPos := rfl
  have hc : (s.withEnv e).rxCnt = s.rxCnt := rfl
  unfold feedByte
  rw [hr, hp, hc, State.feedLength_withEnv, State.feedBody_withEnv]
  split
  · rfl
  · split
    · split <;> rfl
    · rfl
    · rfl
    · split <;> rfl

theorem feedAll_withEnv (bs : List Byte) :
    feedAll bs (s.withEnv e) = mapNext (State.withEnv e) (feedAll bs s) := by
  induction bs generalizing s with
  | nil => rfl
  | cons b bs ih =>
    cases hb : feedByte b s with
    | next t => simp [feedAll, feedByte_withEnv, hb, mapNext, ih]
    | fault r | refused r => simp [feedAll, feedByte_withEnv, hb, mapNext]

theorem exec_ser_withEnv (c : Byte) (p : List Byte) :
    exec (.ser c p) (s.withEnv e) = mapNext (State.withEnv e) (exec (.ser c p) s) := by
  cases hr : s.linkReady with
  | false => rw [exec_ser_notReady hr, exec_ser_notReady (s := s.withEnv e) hr, mapNext]
  | true =>
    by_cases hp : 64 < p.length
    · rw [exec_ser_oversized hr hp, exec_ser_oversized (s := s.withEnv e) hr hp]
      rfl
    · have hp : p.length ≤ 64 := Nat.le_of_not_lt hp
      rw [exec_ser_sent hr hp, exec_ser_sent (s := s.withEnv e) hr hp]
      rfl

theorem exec_post_withEnv (c : Byte) (p : List Byte) :
    exec (.post c p) (s.withEnv e) = mapNext (State.withEnv e) (exec (.post c p) s) := by
  obtain ⟨hd, -⟩ | ⟨hp, ho, -⟩ := postSlot_cases c p s
  · rw [exec_post_dropped hd, exec_post_dropped (s := s.withEnv e) hd]
    rfl
  · rw [exec_post_empty ho hp, exec_post_empty (s := s.withEnv e) ho hp]
    rfl

theorem drainSlot_withEnv :
    drainSlot (s.withEnv e) = (drainSlot s).map (fun q => (q.1, q.2.withEnv e)) := by
  have ho : (s.withEnv e).slotOccupied = s.slotOccupied := rfl
  have hl : (s.withEnv e).slotLen = s.slotLen := rfl
  unfold drainSlot
  rw [ho, hl]
  split
  · rfl
  · split <;> rfl

theorem exec_drain_withEnv : exec .drain (s.withEnv e) = mapNext (State.withEnv e) (exec .drain s) := by
  simp only [exec, execDrain, drainSlot_withEnv]
  rcases drainSlot s with _ | ⟨d, t⟩ <;> rfl

theorem exec_tick_withEnv : exec .tick (s.withEnv e) = mapNext (State.withEnv e) (exec .tick s) := by
  have hr : (s.withEnv e).linkReady = s.linkReady := rfl
  simp only [exec, execTick, drainSlot_withEnv, hr]
  cases s.linkReady with
  | false => rfl
  | true => rcases drainSlot s with _ | ⟨_ | f, t⟩ <;> rfl

theorem exec_hostcmd_withEnv (b : List Byte) :
    exec (.hostcmd b) (s.withEnv e) = mapNext (State.withEnv e) (exec (.hostcmd b) s) := by
  have hpost := exec_post_withEnv e (s := s)
  simp only [exec, execPost, execHostcmd] at hpost ⊢
  split
  · rfl
  · rfl
  · exact hpost _ _

theorem exec_init_withEnv : exec .init (s.withEnv e) = mapNext (State.withEnv e) (exec .init s) := by
  cases hr : s.linkReady with
  | false => rw [exec_init_notReady hr, exec_init_notReady (s := s.withEnv e) hr]; rfl
  | true => rw [exec_init_ready hr, exec_init_ready (s := s.withEnv e) hr, mapNext]

/-- An operation is the same whatever the environment's components hold, and leaves them as they are. -/
theorem exec_withEnv (i : Instr) : exec i (s.withEnv e) = mapNext (State.withEnv e) (exec i s) := by
  cases i with
  | feed b => exact feedByte_withEnv e b
  | ser c p => exact exec_ser_withEnv e c p
  | post c p => exact exec_post_withEnv e c p
  | drain => exact exec_drain_withEnv e
  | tick => exact exec_tick_withEnv e
  | hostcmd b => exact exec_hostcmd_withEnv e b
  | init => exact exec_init_withEnv e
  | flush => rfl
  | wireFrame c p => exact feedAll_withEnv e _
  | wakeupSeq => exact feedAll_withEnv e _

/-- What the fetch answers, with the state it hands on changed. -/
def Fetched.mapState (f : State → State) : Fetched → Fetched
  | .idle s => .idle (f s)
  | .run i s => .run i (f s)
  | .refuse r => .refuse r
  | .reset s => .reset (f s)
  | .move m s => .move m (f s)

/-- The fetch reads the inbox alone. -/
theorem fetch_withEnv : fetch (s.withEnv e) = (fetch s).mapState (State.withEnv e) := by
  have hi : (s.withEnv e).inbox = s.inbox := rfl
  unfold fetch
  rw [hi]
  split
  · rfl
  · split <;> rfl
  · split <;> rfl
  · rfl
  · rfl

/-- The same operation in two environments, with each environment's reaction, ends in the same block. -/
theorem sameButEnv_finish (o : Host.Outcome State Fault Refusal) :
    SameButEnv (finish s o) (finish (s.withEnv e) (mapNext (State.withEnv e) o)) := by
  cases o <;> exact rfl

end

/-- Settles O47: the fetch hands on the same in either environment, an operation runs the same, and a reset or a move
ends in the same block. -/
theorem environmentGatesNothing : Obligations.EnvironmentGatesNothing := by
  intro s e
  change SameButEnv (step s) (step (s.withEnv e))
  simp only [step, fetch_withEnv]
  cases fetch s with
  | run i t =>
    simp only [Fetched.mapState, exec_withEnv]
    exact sameButEnv_finish e (exec i t)
  | idle | refuse | reset | move => exact rfl

end Sys2Proof.Machine

/-! SUPPORT. How an operation can stop (60 R176, R181, R184): the two refusals by their guards, and the fault, which
only a state outside 10 R16 (a) or R23 (b) meets (10 R27). -/

namespace Sys2Proof.Machine

/-- No run of received bytes is refused (40 R80). -/
theorem feedAll_ne_refused (bs : List Byte) (s : State) (r : Refusal) : feedAll bs s ≠ .refused r := by
  induction bs generalizing s with
  | nil => exact nofun
  | cons b bs ih =>
    cases hb : feedByte b s with
    | next t => rw [feedAll_cons_next hb]; exact ih t
    | fault => simp [feedAll, hb]
    | refused q => exact absurd hb (feedByte_stop.1 q)

/-- Received bytes are taken whole, or a body was open with no room for its next byte (10 R16 (a), R27). -/
theorem feedAll_cases (bs : List Byte) (s : State) :
    (∃ t, feedAll bs s = .next t) ∨ (¬ s.BodyOpen ∧ feedAll bs s = .fault .bufferIndex) := by
  by_cases hs : s.BodyOpen
  · obtain ⟨t, -, ht, -⟩ := feedAll_completes bs hs
    exact .inl ⟨t, ht⟩
  · cases h : feedAll bs s with
    | next t => exact .inl ⟨t, rfl⟩
    | fault r => exact .inr ⟨hs, rfl⟩
    | refused r => exact absurd h (feedAll_ne_refused bs s r)

theorem exec_reception_cases {i : Instr} (hi : i.isRequest = false ∨ ∃ b, i = .feed b) (s : State) :
    (∃ t, exec i s = .next t) ∨ (¬ s.BodyOpen ∧ exec i s = .fault .bufferIndex) := by
  obtain ⟨bs, e, -⟩ := exists_exec_eq_feedAll hi s
  rw [e]
  exact feedAll_cases bs s

/-- TICK's inner DRAIN meets the same end of SLOT (10 R27, 42 R114). -/
theorem exec_tick_fault {s : State} (hr : s.linkReady = true) (ho : s.slotOccupied = true)
    (hl : 64 < s.slotLen.toNat) : exec .tick s = .fault .bufferIndex := by
  simp [exec, execTick, drainSlot, hr, ho, hl.not_ge, maxPayload_eq]

/-- An operation has a next state, is refused by its guard on link_ready, or meets an index past the end of a buffer. -/
theorem exec_cases (i : Instr) (s : State) :
    (∃ t, exec i s = .next t) ∨
    (((∃ c p, i = .ser c p) ∨ i = .tick) ∧ s.linkReady = false ∧ exec i s = .refused .notReady) ∨
    (i = .init ∧ s.linkReady = true ∧ exec i s = .refused .initTwice) ∨
    (¬ (s.BodyOpen ∧ s.SlotFits) ∧ exec i s = .fault .bufferIndex) := by
  have hrx := exec_reception_cases (i := i)
  cases i with
  | feed | wireFrame | wakeupSeq =>
    obtain h | ⟨hb, h⟩ := hrx (by simp [Instr.isRequest]) s
    · exact .inl h
    · exact .inr (.inr (.inr ⟨fun ⟨hs, _⟩ => hb hs, h⟩))
  | ser c p =>
    cases hr : s.linkReady with
    | false => exact .inr (.inl ⟨.inl ⟨c, p, rfl⟩, rfl, exec_ser_notReady hr⟩)
    | true =>
      obtain hp | hp := Nat.lt_or_ge 64 p.length
      · exact .inl ⟨_, exec_ser_oversized hr hp⟩
      · exact .inl ⟨_, exec_ser_sent hr hp⟩
  | drain =>
    obtain ⟨ho, -⟩ | ⟨ho, hl, -⟩ | ⟨ho, hl, -⟩ := drainSlot_cases s
    · exact .inl ⟨_, exec_drain_empty ho⟩
    · exact .inl ⟨_, exec_drain_taken ho (State.length_pending_payload_le_iff.2 hl)⟩
    · exact .inr (.inr (.inr ⟨fun ⟨_, hs⟩ => (hs ho).not_gt hl, exec_drain_fault ho hl⟩))
  | tick =>
    cases hr : s.linkReady with
    | false => exact .inr (.inl ⟨.inr rfl, rfl, exec_tick_notReady hr⟩)
    | true =>
      obtain ⟨ho, -⟩ | ⟨ho, hl, -⟩ | ⟨ho, hl, -⟩ := drainSlot_cases s
      · exact .inl ⟨_, exec_tick_empty hr ho⟩
      · exact .inl ⟨_, exec_tick_taken hr ho hl⟩
      · exact .inr (.inr (.inr ⟨fun ⟨_, hs⟩ => (hs ho).not_gt hl, exec_tick_fault hr ho hl⟩))
  | init =>
    cases hr : s.linkReady with
    | false => exact .inl ⟨_, exec_init_notReady hr⟩
    | true => exact .inr (.inr (.inl ⟨rfl, rfl, exec_init_ready hr⟩))
  | hostcmd b =>
    left
    simp only [exec, execHostcmd]
    split <;> exact ⟨_, rfl⟩
  | post | flush => exact .inl ⟨_, rfl⟩

/-- From a state that meets the invariants no operation is a fault. -/
theorem State.Inv.exec_ne_fault {s : State} (hs : s.Inv) (i : Instr) (r : Fault) : exec i s ≠ .fault r := by
  obtain ⟨t, e⟩ | ⟨-, -, e⟩ | ⟨-, -, e⟩ | ⟨hn, -⟩ := exec_cases i s
  · simp [e]
  · simp [e]
  · simp [e]
  · exact absurd ⟨hs.bodyOpen, hs.slotFits⟩ hn

theorem mapNext_eq_fault_iff {f : State → State} {o : Host.Outcome State Fault Refusal} {r : Fault} :
    mapNext f o = .fault r ↔ o = .fault r := by
  cases o <;> simp [mapNext]

/-- A step faults only where the operation that the fetch hands it does (60 R181). -/
theorem step_fault {s : State} {r : Fault} (h : step s = .fault r) :
    ∃ i rest, exec i { s with inbox := rest } = .fault r := by
  obtain ⟨rest, e | ⟨i, e⟩ | ⟨q, e⟩ | e | ⟨m, e⟩⟩ := fetch_cases s
  case inr.inl => exact ⟨i, rest, mapNext_eq_fault_iff.1 ((step_run e).symm.trans h)⟩
  all_goals simp [step, e] at h

/-- Settles O41: the fetch changes the inbox alone, so the operation it hands on runs in a state that meets the
invariants. -/
theorem stepNeverFaults : Obligations.StepNeverFaults := by
  intro s r hs h
  obtain ⟨i, rest, hexec⟩ := step_fault h
  exact (hs.outside _ rest _).exec_ne_fault i r hexec

/-- Settles O37: each guard refuses by its own name, and no other outcome of an operation is a refusal. -/
theorem operationsRefusedExactly : Obligations.OperationsRefusedExactly := by
  refine fun i s r => ⟨fun h => ?_, ?_⟩
  · obtain ⟨t, e⟩ | ⟨hi, hr, e⟩ | ⟨hi, hr, e⟩ | ⟨-, e⟩ := exec_cases i s <;> rw [e] at h <;> cases h
    · exact .inl ⟨hi, hr, rfl⟩
    · exact .inr ⟨hi, hr, rfl⟩
  · rintro (⟨⟨c, p, rfl⟩ | rfl, hr, rfl⟩ | ⟨rfl, hr, rfl⟩)
    · exact exec_ser_notReady hr
    · exact exec_tick_notReady hr
    · exact exec_init_ready hr

/-- Settles O46: the fetch passes over the context of a request, so the two steps are one by definition. -/
theorem contextDoesNotMatter : Obligations.ContextDoesNotMatter := fun _ _ _ _ _ => rfl

end Sys2Proof.Machine

/-! SUPPORT. Dead data (10 R17, R22; 92 D18): operations take states that agree on what is live to states that do, and
so does a step. The live parts of the two states are compared update by update, and then over the ways in which an
operation completes. -/

namespace Sys2Proof.Machine

/-- Equal runs of reads are equal bytes at the indices they read. -/
theorem Memory.read_eq_of_readBytes_eq {m m' : Memory} {n k : Nat} (h : m.readBytes n = m'.readBytes n) (hk : k < n) :
    m.read k = m'.read k := by
  rw [readBytes_eq_map_range, readBytes_eq_map_range, List.map_inj_left] at h
  exact h k (List.mem_range.2 hk)

/-! The named updates of the state. -/

namespace State.SameLive

section
variable {s t u v : State}

theorem respond (h : s.SameLive t) (o : Outputs) : (s.respond o).SameLive (t.respond o) :=
  { h with results := congrArg (· ++ [o]) h.results }

theorem withInbox (h : s.SameLive t) (rest : List Input) :
    { s with inbox := rest : State }.SameLive { t with inbox := rest } :=
  { h with inbox := rfl }

/-- In AwaitHeader nothing of the frame in progress is live (10 R17). -/
theorem setPos_awaitHeader (h : s.SameLive t) : (s.setPos .awaitHeader).SameLive (t.setPos .awaitHeader) :=
  { h with pos := rfl, cmd := nofun, body := nofun }

theorem setPos_awaitCommand (h : s.SameLive t) : (s.setPos .awaitCommand).SameLive (t.setPos .awaitCommand) :=
  { h with pos := rfl, cmd := nofun, body := nofun }

/-- The command id is live from here on, and is the same byte in both. -/
theorem latchCmd (h : s.SameLive t) (b : Byte) : (s.latchCmd b).SameLive (t.latchCmd b) :=
  { h with pos := rfl, cmd := fun _ => rfl, body := nofun }

/-- A new body has no byte stored, so nothing of ACC is live yet. -/
theorem beginBody (h : s.SameLive t) (hp : s.rxPos = .awaitLength) (n : Nat) :
    (s.beginBody n).SameLive (t.beginBody n) :=
  { h with
    pos := rfl
    cmd := fun _ => h.cmd (.inl hp)
    body := fun _ => ⟨rfl, rfl, nofun⟩ }

/-- A stored byte is the one byte that becomes live, and it is written over in both. -/
theorem storeByte (h : s.SameLive t) (hp : s.rxPos = .awaitBody) (hc : s.rxCnt.toNat < 64) (b : Byte) :
    (s.storeByte b).SameLive (t.storeByte b) := by
  obtain ⟨hexp, hcnt, hacc⟩ := h.body hp
  refine { h with body := fun _ => ⟨hexp, ?_, fun k hk => ?_⟩ }
  · simp only [storeByte_rxCnt, hcnt]
  · rw [storeByte_rxCnt, toNat_len7 hc] at hk
    rw [storeByte_acc, storeByte_acc, ← hcnt, Memory.read_write, Memory.read_write]
    split
    · rfl
    · exact hacc k (by omega)

/-- A filled slot holds the payload below its length, whatever SLOT held before (42 R111). -/
theorem fillSlot (h : s.SameLive t) (c : Byte) {p : List Byte} (hp : p.length ≤ 64) :
    (s.fillSlot c p).SameLive (t.fillSlot c p) := by
  refine { h with occupied := rfl, pending := fun _ => ⟨rfl, rfl, fun k hk => ?_⟩ }
  rw [fillSlot_slotLen, toNat_len7 hp] at hk
  refine Memory.read_eq_of_readBytes_eq ?_ hk
  rw [fillSlot_slot, fillSlot_slot, Memory.readBytes_writeFrom, Memory.readBytes_writeFrom]

/-- A drained slot has no live data (10 R22). -/
theorem vacate (h : s.SameLive t) : s.vacate.SameLive t.vacate := { h with occupied := rfl, pending := nofun }

theorem emit (h : s.SameLive t) (bs : List Byte) : (s.emit bs).SameLive (t.emit bs) :=
  { h with tx := congrArg (· ++ bs) h.tx }

theorem markReady (h : s.SameLive t) : s.markReady.SameLive t.markReady :=
  { h with pos := rfl, ready := rfl, cmd := nofun, body := nofun }

/-- Reset gives both the same block (70 R201). -/
theorem resetBlock (h : s.SameLive t) : s.resetBlock.SameLive t.resetBlock where
  pos := rfl
  ready := rfl
  occupied := rfl
  cmd := nofun
  body := nofun
  pending := nofun
  tx := rfl
  results := rfl
  inbox := h.inbox
  env := h.env

theorem moveEnv (h : s.SameLive t) (m : Move) : (s.moveEnv m).SameLive (t.moveEnv m) :=
  { h with env := congrArg (Env.move · m) h.env }

/-- The environment takes the same new results in both. -/
theorem observe (h : s.SameLive t) (k : u.SameLive v) : (s.observe u).SameLive (t.observe v) :=
  { k with env := by simp only [State.observe, h.results, k.results, k.env] }

/-! What an operation reads of live data. -/

theorem pending_eq (h : s.SameLive t) (ho : s.slotOccupied = true) : s.pending = t.pending := by
  obtain ⟨hcmd, hlen, hslot⟩ := h.pending ho
  rw [State.pending, State.pending, hcmd, Memory.readBytes_congr hslot, hlen]

/-- The frame that a closing byte completes is made of live data alone (40 R84). -/
theorem feedBody (h : s.SameLive t) (hp : s.rxPos = .awaitBody) (hc : s.rxCnt.toNat < 64) (b : Byte) :
    (s.feedBody b).SameLive (t.feedBody b) := by
  obtain ⟨hexp, hcnt, hacc⟩ := h.body hp
  have hstored := h.storeByte hp hc b
  by_cases hlast : s.rxCnt.toNat + 1 = s.rxExplen.toNat
  · rw [feedBody_last hlast, feedBody_last (hexp ▸ hcnt ▸ hlast), ← h.cmd (.inr hp), ← hcnt,
      Memory.readBytes_congr hacc]
    exact hstored.setPos_awaitHeader.respond _
  · rw [feedBody_notLast hlast, feedBody_notLast (hexp ▸ hcnt ▸ hlast)]
    exact hstored.respond _

/-! Reception. -/

theorem feedByte {b : Byte} (h : s.SameLive t) (hu : feedByte b s = .next u) :
    ∃ v, feedByte b t = .next v ∧ u.SameLive v := by
  obtain ⟨hr, rfl⟩ | ⟨hr, hp, rfl, rfl⟩ | ⟨-, hp, hb, rfl⟩ | ⟨hr, hp, rfl⟩ | ⟨hr, hp, hb, rfl⟩ | ⟨hr, hp, hb, rfl⟩ |
    ⟨hr, hp, h1, h64, rfl⟩ | ⟨hr, hp, hc, -⟩ | ⟨hr, hp, hc, -⟩ := feedByte_cases hu
  · exact ⟨_, feedByte_discarded (.inl (h.ready ▸ hr)), h.respond _⟩
  · exact ⟨_, feedByte_hdr (h.ready ▸ hr) (h.pos ▸ hp), h.setPos_awaitCommand.respond _⟩
  · exact ⟨_, feedByte_discarded (.inr ⟨h.pos ▸ hp, hb⟩), h.respond _⟩
  · exact ⟨_, feedByte_awaitCommand (h.ready ▸ hr) (h.pos ▸ hp), (h.latchCmd b).respond _⟩
  · exact ⟨_, feedByte_oversized (h.ready ▸ hr) (h.pos ▸ hp) hb, h.setPos_awaitHeader.respond _⟩
  · rw [h.cmd (.inl hp)]
    exact ⟨_, feedByte_zeroLength (h.ready ▸ hr) (h.pos ▸ hp) hb, h.setPos_awaitHeader.respond _⟩
  · exact ⟨_, feedByte_opensBody (h.ready ▸ hr) (h.pos ▸ hp) h1 h64, (h.beginBody hp _).respond _⟩
  -- A byte of the body, the last or not.
  all_goals
    obtain ⟨-, hcnt, -⟩ := h.body hp
    rw [feedByte_awaitBody hr hp hc] at hu
    cases hu
    exact ⟨_, feedByte_awaitBody (h.ready ▸ hr) (h.pos ▸ hp) (hcnt ▸ hc), h.feedBody hp hc b⟩

theorem feedAll {bs : List Byte} (h : s.SameLive t) (hu : feedAll bs s = .next u) :
    ∃ v, feedAll bs t = .next v ∧ u.SameLive v := by
  induction bs generalizing s t with
  | nil => cases hu; exact ⟨t, rfl, h⟩
  | cons b bs ih =>
    cases hb : Machine.feedByte b s with
    | next s' =>
      obtain ⟨t', ht', h'⟩ := h.feedByte hb
      rw [feedAll_cons_next hb] at hu
      rw [feedAll_cons_next ht']
      exact ih h' hu
    | fault | refused => simp [Machine.feedAll, hb] at hu

end

end State.SameLive

/-! Operations. -/

section
variable {s t u : State} {i : Instr} {b : List Byte}

theorem exec_hostcmd_of_delegate {d : List Byte} (hb : readHostCommand b = .delegate d) :
    exec (.hostcmd b) s = .next (s.respond { postOk := some false, delegated := some d }) := by
  simp only [exec, execHostcmd, hb]

theorem exec_hostcmd_of_forward {c : Byte} {p : List Byte} (hb : readHostCommand b = .forward c p) :
    exec (.hostcmd b) s = exec (.post c p) s := by
  simp only [exec, execHostcmd, execPost, hb]

/-- The way in which an operation completes is decided by live data, and what it answers is made of live data. -/
theorem State.SameLive.completes (h : s.SameLive t) (hc : Completes i s u) :
    ∃ v, exec i t = .next v ∧ u.SameLive v := by
  cases hc with
  | feed hu => exact h.feedByte hu
  | wireFrame hu | wakeupSeq hu => exact h.feedAll hu
  | serSent hr hp => exact ⟨_, exec_ser_sent (h.ready ▸ hr) hp, (h.emit _).respond _⟩
  | serOversized hr hp => exact ⟨_, exec_ser_oversized (h.ready ▸ hr) hp, h.respond _⟩
  | postStored hp ho => exact ⟨_, exec_post_empty (h.occupied ▸ ho) hp, (h.fillSlot _ hp).respond _⟩
  | postDropped hd => exact ⟨_, exec_post_dropped (h.occupied ▸ hd), h.respond _⟩
  | drainTaken ho hl =>
    have hpend := h.pending_eq ho
    refine ⟨_, exec_drain_taken (h.occupied ▸ ho) ?_, hpend ▸ h.vacate.respond _⟩
    exact hpend ▸ State.length_pending_payload_le_iff.2 hl
  | drainEmpty ho => exact ⟨_, exec_drain_empty (h.occupied ▸ ho), h.respond _⟩
  | tickTaken hr ho hl =>
    obtain ⟨-, hlen, -⟩ := h.pending ho
    rw [h.pending_eq ho]
    exact ⟨_, exec_tick_taken (h.ready ▸ hr) (h.occupied ▸ ho) (hlen ▸ hl), (h.vacate.emit _).respond _⟩
  | tickEmpty hr ho => exact ⟨_, exec_tick_empty (h.ready ▸ hr) (h.occupied ▸ ho), h.respond _⟩
  | hostcmdShort hb => exact ⟨_, exec_hostcmd_short hb, h.respond _⟩
  | hostcmdDelegated hb => exact ⟨_, exec_hostcmd_of_delegate hb, h.respond _⟩
  | hostcmdStored hb hp ho =>
    exact ⟨_, (exec_hostcmd_of_forward hb).trans (exec_post_empty (h.occupied ▸ ho) hp),
      (h.fillSlot _ hp).respond _⟩
  | hostcmdDropped hb hd =>
    exact ⟨_, (exec_hostcmd_of_forward hb).trans (exec_post_dropped (h.occupied ▸ hd)), h.respond _⟩
  | init hr => exact ⟨_, exec_init_notReady (h.ready ▸ hr), (h.emit _).markReady.respond _⟩
  | flush => exact ⟨_, rfl, h.setPos_awaitHeader.respond _⟩

/-- An operation is refused by link_ready alone, which is live. -/
theorem State.SameLive.exec_refused {r : Refusal} (h : s.SameLive t) (hr : exec i s = .refused r) :
    exec i t = .refused r := by
  rw [operationsRefusedExactly] at hr ⊢
  rwa [← h.ready]

/-- From states that agree on what is live an operation has the same outcome, given that it is no fault. -/
theorem State.SameLive.exec (h : s.SameLive t) (hs : s.Inv) (i : Instr) : SameOutcome (exec i s) (exec i t) := by
  cases hi : Machine.exec i s with
  | next u =>
    obtain ⟨v, hv, huv⟩ := h.completes (exec_completes hi)
    rw [hv]
    exact huv
  | refused r =>
    rw [h.exec_refused hi]
    rfl
  | fault r => exact absurd hi (hs.exec_ne_fault i r)

/-! The step. -/

/-- The fetch answers by the inbox alone. -/
theorem fetch_eq_of_inbox_eq (h : s.inbox = t.inbox) :
    fetch t = (fetch s).mapState fun u => { t with inbox := u.inbox } := by
  unfold fetch
  rw [← h]
  split
  · rw [Fetched.mapState, h]
  · split <;> rfl
  · split <;> rfl
  · rfl
  · rfl

theorem SameOutcome.mapNext {f g : State → State} {o o' : Host.Outcome State Fault Refusal} (h : SameOutcome o o')
    (hfg : ∀ u v : State, u.SameLive v → (f u).SameLive (g v)) : SameOutcome (mapNext f o) (mapNext g o') :=
  match o, o', h with
  | .next u, .next v, huv => hfg u v huv
  | .refused _, .refused _, hr => hr

end

/-- Settles O42: the fetch hands on the same for both, and each thing it hands on keeps the agreement. -/
theorem deadDataUnobservable : Obligations.DeadDataUnobservable := by
  intro s t hs _ h
  have hfetch := fetch_eq_of_inbox_eq h.inbox
  obtain ⟨rest, e | ⟨i, e⟩ | ⟨r, e⟩ | e | ⟨m, e⟩⟩ := fetch_cases s <;> rw [e, Fetched.mapState] at hfetch
  · simp only [step, e, hfetch]
    exact h.withInbox rest
  · rw [step_run e, step_run hfetch]
    exact ((h.withInbox rest).exec (hs.outside _ rest _) i).mapNext fun _ _ => (h.withInbox rest).observe
  · simp only [step, e, hfetch]
    rfl
  · simp only [step, e, hfetch]
    exact (h.withInbox rest).resetBlock
  · simp only [step, e, hfetch]
    exact (h.withInbox rest).moveEnv m

end Sys2Proof.Machine

/-! SUPPORT. Reset (70 R200, R201): the state it gives, and the event as a step. -/

namespace Sys2Proof.Machine

/-- Settles O39: nothing is in progress, pending or sent after reset, and the buffers are empty. -/
theorem resetMeetsInvariants : Obligations.ResetMeetsInvariants := State.reset_inv

/-- Settles O43: the values are fields of the reset state as it is defined. -/
theorem resetValues : Obligations.ResetValues := ⟨rfl, rfl, rfl, rfl, rfl⟩

/-- The reset event takes its entry from the inbox and restores the block (70 R200). -/
theorem step_reset {s : State} {rest : List Input} (h : s.inbox = .reset :: rest) :
    step s = .next { s with inbox := rest : State }.resetBlock := by
  simp only [step, fetch, h]

/-- Settles O44: the restored block is `State.reset` but for the inbox and the environment's components. -/
theorem resetForgetsTheBlock : Obligations.ResetForgetsTheBlock := fun _ _ => step_reset

end Sys2Proof.Machine
